-- ==== Sys2Proof/Word.lean ====
section
/-! DEFINITION. The words of SPIM: bytes, and a word of each of the four formats of R80. -/

namespace Sys2Proof

/-- "All data bytes are 8 bits" (R7); every access moves one byte (R54). -/
abbrev Byte := BitVec 8

/-- A word of one of the four fixed-width formats (R80). The formats share no opcode space: the same bits mean
different things in different formats, so a word carries its format. -/
inductive TableWord where
  /-- Format H, a host command word (R81). -/
  | command (w : BitVec 10)
  /-- Format Q, a result word (R84). -/
  | result (w : BitVec 10)
  /-- Format B, a register-interface request word (R86). -/
  | request (w : BitVec 12)
  /-- Format P, a phase code (R89). -/
  | phase (w : BitVec 5)
  deriving DecidableEq, Repr

/-- `zext_8` of one bit (R11). -/
def zext8 (b : Bool) : Byte := if b then 1#8 else 0#8

end Sys2Proof
end

