-- ==== Sys2Proof/Syntax.lean ====
section
/-! DEFINITION. The instructions of SPIM: one constructor per row of spec/opcode_table.json (R9, R95). -/

namespace Sys2Proof

/-- The three kinds of thing that play the part of instructions (R9), with the result words of R85. -/
inductive Instr where
  -- Host commands, Format H (R82). The data field of INIT and RECEIVE is "ignored on decode" (R83); it is kept
  -- because ACCEPT(c) records the word c itself (R33).
  | init (data : Byte)
  | send (data : Byte)
  | receive (data : Byte)
  -- Result words, Format Q (R85).
  | resNone
  | resAck
  | resByte (v : Byte)
  | resTimeout
  -- Register-interface accesses, Format B (R88).
  | rdData
  | wrData (b : Byte)
  | rdStat
  | clrStat
  | wrEn (e : Bool)
  | wrCfg
  | setSs (l : Bool)
  -- Micro-operations, Format P (R89).
  | idle
  | initCfg
  | initSs
  | initEn
  | drain
  | select
  | load
  | polling
  | escDis1
  | escEn1
  | escDrain
  | escClr
  | escDis2
  | escEn2
  | succeeded
  | collect
  | timedout
  deriving DecidableEq, Repr

/-- The row of spec/opcode_table.json an instruction stands for. -/
def Instr.mnemonic : Instr → String
  | .init _ => "INIT"
  | .send _ => "SEND"
  | .receive _ => "RECEIVE"
  | .resNone => "NONE"
  | .resAck => "ACK"
  | .resByte _ => "BYTE"
  | .resTimeout => "TIMEOUT"
  | .rdData => "RD_DATA"
  | .wrData _ => "WR_DATA"
  | .rdStat => "RD_STAT"
  | .clrStat => "CLR_STAT"
  | .wrEn _ => "WR_EN"
  | .wrCfg => "WR_CFG"
  | .setSs _ => "SET_SS"
  | .idle => "IDLE"
  | .initCfg => "INIT_CFG"
  | .initSs => "INIT_SS"
  | .initEn => "INIT_EN"
  | .drain => "DRAIN"
  | .select => "SELECT"
  | .load => "LOAD"
  | .polling => "POLLING"
  | .escDis1 => "ESC_DIS1"
  | .escEn1 => "ESC_EN1"
  | .escDrain => "ESC_DRAIN"
  | .escClr => "ESC_CLR"
  | .escDis2 => "ESC_DIS2"
  | .escEn2 => "ESC_EN2"
  | .succeeded => "SUCCEEDED"
  | .collect => "COLLECT"
  | .timedout => "TIMEDOUT"

/-- The caller level of R181: "the three host commands, which are all a caller can do". Everything else is
internal level; "the level is a property of the encoding, not of state". -/
def Instr.callerLevel : Instr → Bool
  | .init _ => true
  | .send _ => true
  | .receive _ => true
  | _ => false

/-- `exchangeByte(outgoing)` and `exchangeByte(none)`, `Transfer Engine.send/receive` (R93). -/
def exchangeByte : Option Byte → Instr
  | some b => .send b
  | none => .receive 0#8

/-- `resetPeripheral()`, `resetModule()`, `Reset Escalator.reset` (R93, R150). -/
def resetPeripheral : List Instr := [.escDis1, .escEn1, .escDrain, .escClr, .escDis2, .escEn2]

end Sys2Proof
end

