-- ==== Sys2Proof/WellFormed.lean ====
section
/-! DEFINITION. Which words are well-formed: the match and mask columns of R82, R85, R88 and R89, row by row. An
`Instr` is well-formed by its types (its operands are exactly the bits the formats give them); what can be
ill-formed is a word, and these checks refuse the reserved words of R90. -/

namespace Sys2Proof

/-- One row of the opcode table: a word `w` is of the row when `w &&& mask = pattern`. -/
structure Row (n : Nat) where
  mnemonic : String
  pattern : BitVec n
  mask : BitVec n
  deriving DecidableEq, Repr

/-- Does a word belong to a row? -/
def Row.matches {n : Nat} (r : Row n) (w : BitVec n) : Bool := w &&& r.mask == r.pattern

/-- Format H (R82). -/
def commandRows : List (Row 10) :=
  [⟨"INIT", 0x100#10, 0x300#10⟩, ⟨"SEND", 0x200#10, 0x300#10⟩, ⟨"RECEIVE", 0x300#10, 0x300#10⟩]

/-- Format Q (R85). -/
def resultRows : List (Row 10) :=
  [⟨"NONE", 0x000#10, 0x3FF#10⟩, ⟨"ACK", 0x100#10, 0x3FF#10⟩, ⟨"BYTE", 0x200#10, 0x300#10⟩,
   ⟨"TIMEOUT", 0x300#10, 0x3FF#10⟩]

/-- Format B (R88). -/
def requestRows : List (Row 12) :=
  [⟨"RD_DATA", 0x000#12, 0xFFF#12⟩, ⟨"WR_DATA", 0x800#12, 0xF00#12⟩, ⟨"RD_STAT", 0x100#12, 0xFFF#12⟩,
   ⟨"CLR_STAT", 0x900#12, 0xFFF#12⟩, ⟨"WR_EN", 0xA00#12, 0xFFE#12⟩, ⟨"WR_CFG", 0xB00#12, 0xFFF#12⟩,
   ⟨"SET_SS", 0xC00#12, 0xFFE#12⟩]

/-- Format P (R89). -/
def phaseRows : List (Row 5) :=
  [⟨"IDLE", 0#5, 31#5⟩, ⟨"INIT_CFG", 1#5, 31#5⟩, ⟨"INIT_SS", 2#5, 31#5⟩, ⟨"INIT_EN", 3#5, 31#5⟩,
   ⟨"DRAIN", 4#5, 31#5⟩, ⟨"SELECT", 5#5, 31#5⟩, ⟨"LOAD", 6#5, 31#5⟩, ⟨"POLLING", 7#5, 31#5⟩] ++
  [⟨"ESC_DIS1", 8#5, 31#5⟩, ⟨"ESC_EN1", 9#5, 31#5⟩, ⟨"ESC_DRAIN", 10#5, 31#5⟩, ⟨"ESC_CLR", 11#5, 31#5⟩,
   ⟨"ESC_DIS2", 12#5, 31#5⟩, ⟨"ESC_EN2", 13#5, 31#5⟩, ⟨"SUCCEEDED", 14#5, 31#5⟩, ⟨"COLLECT", 15#5, 31#5⟩,
   ⟨"TIMEDOUT", 16#5, 31#5⟩]

/-- The mnemonics of the rows of its format that a word matches. -/
def rowsOf : TableWord → List String
  | .command w => (commandRows.filter (·.matches w)).map (·.mnemonic)
  | .result w => (resultRows.filter (·.matches w)).map (·.mnemonic)
  | .request w => (requestRows.filter (·.matches w)).map (·.mnemonic)
  | .phase w => (phaseRows.filter (·.matches w)).map (·.mnemonic)

/-- A word is well-formed when some row of its format has it; the others are the reserved words of R90. -/
def TableWord.wellFormed : TableWord → Bool
  | .command w => commandRows.any (·.matches w)
  | .result w => resultRows.any (·.matches w)
  | .request w => requestRows.any (·.matches w)
  | .phase w => phaseRows.any (·.matches w)

end Sys2Proof
end

