-- ==== Sys2Proof/Decode.lean ====
section
/-! DEFINITION. The decoder of the four formats (30_encoding.md R80 to R90), total on every word and rejecting by
name, and the encoder beside it. -/

namespace Sys2Proof

/-- Why a word is no instruction (R90). -/
inductive DecodeError where
  /-- Host `op = 0b00`, R90 (a). -/
  | reservedCommand
  /-- A result word "never produced", R90 (b). -/
  | unproducedResult
  /-- A request word "never issued by `SPIM`", R90 (c). -/
  | unissuedRequest
  /-- A phase code from 17 to 31, R90 (d). -/
  | reservedPhase
  deriving DecidableEq, Repr

/-- Format H: `op` is bits 9:8, `data` bits 7:0 (R81, R82, R83). -/
def decodeCommand (w : BitVec 10) : Except DecodeError Instr :=
  let data : Byte := w.extractLsb' 0 8
  match (w.extractLsb' 8 2).toNat with
  | 1 => .ok (.init data)
  | 2 => .ok (.send data)
  | 3 => .ok (.receive data)
  | _ => .error .reservedCommand

/-- Format Q: `rstat` is bits 9:8, `rdata` bits 7:0; only BYTE has a nonzero `rdata` (R84, R85). -/
def decodeResult (w : BitVec 10) : Except DecodeError Instr :=
  let rdata : Byte := w.extractLsb' 0 8
  match (w.extractLsb' 8 2).toNat, rdata == 0#8 with
  | 0, true => .ok .resNone
  | 1, true => .ok .resAck
  | 2, _ => .ok (.resByte rdata)
  | 3, true => .ok .resTimeout
  | _, _ => .error .unproducedResult

/-- Format B: `w` is bit 11, `addr` bits 10:8, `wdata` bits 7:0 (R86, R88). -/
def decodeRequest (w : BitVec 12) : Except DecodeError Instr :=
  let wdata : Byte := w.extractLsb' 0 8
  match w.getLsbD 11, (w.extractLsb' 8 3).toNat with
  | false, 0 => if wdata = 0#8 then .ok .rdData else .error .unissuedRequest
  | false, 1 => if wdata = 0#8 then .ok .rdStat else .error .unissuedRequest
  | true, 0 => .ok (.wrData wdata)
  | true, 1 => if wdata = 0#8 then .ok .clrStat else .error .unissuedRequest
  | true, 2 => if wdata.extractLsb' 1 7 = 0#7 then .ok (.wrEn (wdata.getLsbD 0)) else .error .unissuedRequest
  | true, 3 => if wdata = 0#8 then .ok .wrCfg else .error .unissuedRequest
  | true, 4 => if wdata.extractLsb' 1 7 = 0#7 then .ok (.setSs (wdata.getLsbD 0)) else .error .unissuedRequest
  | _, _ => .error .unissuedRequest

/-- Format P: the seventeen phase codes of R89. -/
def decodePhase (w : BitVec 5) : Except DecodeError Instr :=
  match w.toNat with
  | 0 => .ok .idle
  | 1 => .ok .initCfg
  | 2 => .ok .initSs
  | 3 => .ok .initEn
  | 4 => .ok .drain
  | 5 => .ok .select
  | 6 => .ok .load
  | 7 => .ok .polling
  | 8 => .ok .escDis1
  | 9 => .ok .escEn1
  | 10 => .ok .escDrain
  | 11 => .ok .escClr
  | 12 => .ok .escDis2
  | 13 => .ok .escEn2
  | 14 => .ok .succeeded
  | 15 => .ok .collect
  | 16 => .ok .timedout
  | _ => .error .reservedPhase

/-- The decoder: a word of any format to its instruction, or the name of why there is none. -/
def decode : TableWord → Except DecodeError Instr
  | .command w => decodeCommand w
  | .result w => decodeResult w
  | .request w => decodeRequest w
  | .phase w => decodePhase w

/-- Does a word decode? -/
def decodes (t : TableWord) : Bool :=
  match decode t with
  | .ok _ => true
  | .error _ => false

/-! ## The encoder -/

/-- A Format H word `{op, data}` (R81). -/
def commandWord (op : BitVec 2) (data : Byte) : BitVec 10 := op ++ data

/-- A Format Q word `{rstat, rdata}` (R84). -/
def resultWord (rstat : BitVec 2) (rdata : Byte) : BitVec 10 := rstat ++ rdata

/-- A Format B word `{w, addr, wdata}` (R86). -/
def requestWord (w : Bool) (addr : BitVec 3) (wdata : Byte) : BitVec 12 := (BitVec.ofBool w ++ addr) ++ wdata

/-- The word of an instruction, from the tables of R82, R85, R88 and R89. -/
def encode : Instr → TableWord
  | .init d => .command (commandWord 0b01#2 d)
  | .send d => .command (commandWord 0b10#2 d)
  | .receive d => .command (commandWord 0b11#2 d)
  | .resNone => .result (resultWord 0b00#2 0#8)
  | .resAck => .result (resultWord 0b01#2 0#8)
  | .resByte v => .result (resultWord 0b10#2 v)
  | .resTimeout => .result (resultWord 0b11#2 0#8)
  | .rdData => .request (requestWord false 0#3 0#8)
  | .wrData b => .request (requestWord true 0#3 b)
  | .rdStat => .request (requestWord false 1#3 0#8)
  | .clrStat => .request (requestWord true 1#3 0#8)
  | .wrEn e => .request (requestWord true 2#3 (zext8 e))
  | .wrCfg => .request (requestWord true 3#3 0#8)
  | .setSs l => .request (requestWord true 4#3 (zext8 l))
  | .idle => .phase 0#5
  | .initCfg => .phase 1#5
  | .initSs => .phase 2#5
  | .initEn => .phase 3#5
  | .drain => .phase 4#5
  | .select => .phase 5#5
  | .load => .phase 6#5
  | .polling => .phase 7#5
  | .escDis1 => .phase 8#5
  | .escEn1 => .phase 9#5
  | .escDrain => .phase 10#5
  | .escClr => .phase 11#5
  | .escDis2 => .phase 12#5
  | .escEn2 => .phase 13#5
  | .succeeded => .phase 14#5
  | .collect => .phase 15#5
  | .timedout => .phase 16#5

/-! ## Words by their number of bits -/

/-- The readings of a bare number as a word, in the order they are tried. The four formats share no opcode space
(R80), and 10 and 12 bits both fill two bytes, so the number alone does not name its format: a word of one byte is
a phase code; of two bytes it is read as a host command, then as a request, then as a result (log 11). A number of
exactly 10 or 12 bits is read in the formats of that width only. -/
def readings (nbits w : Nat) : List TableWord :=
  if nbits ≤ 8 then (if w < 32 then [.phase (BitVec.ofNat 5 w)] else [])
  else
    (if nbits ≠ 12 ∧ w < 1024 then [.command (BitVec.ofNat 10 w)] else []) ++
    (if nbits ≠ 10 ∧ w < 4096 then [.request (BitVec.ofNat 12 w)] else []) ++
    (if nbits ≠ 12 ∧ w < 1024 then [.result (BitVec.ofNat 10 w)] else [])

/-- The first reading of a number that decodes. -/
def tableWordOf (nbits w : Nat) : Option TableWord := (readings nbits w).find? decodes

/-- The instruction the decoder reads from a number of `nbits` bits. -/
def decodeTableWord (nbits w : Nat) : Option Instr :=
  match tableWordOf nbits w with
  | none => none
  | some t =>
    match decode t with
    | .ok i => some i
    | .error _ => none

end Sys2Proof
end

