-- ==== Sys2Proof/Config.lean ====
section
/-! DEFINITION. The implementation parameters of R6 and the values no rule fixes (the `draw` of R11).
An opaque constant here has no body, so no proof can lean on its value. -/

namespace Sys2Proof.Config

/-- A byte no rule fixes; applied to the counter `draws` of State (log 9). -/
opaque freeByte : Nat → Byte

/-- A choice no rule fixes: whether the exchange in flight completes before the next step (R63, R64). -/
opaque freeBool : Nat → Bool

/-- A number no rule fixes: a counter leaving its range (R131, R132; log 10). -/
opaque freeNat : Nat → Nat

/-- What a location of the register interface holds from power-on until it is first written: "unspecified
(`any value`)" (R37, R202, R203; log 2). -/
opaque powerOnByte : Nat → Byte

/-- `CFG_INIT`, "opaque value, OPEN" (R6): no source gives a value. -/
opaque cfgInit : Byte

/-- The four implementation parameters (R6). "A model takes them as configuration." -/
structure Params where
  /-- `WINDOW_MAX`: unsuccessful polls in one polling window. -/
  windowMax : Nat
  /-- `ESCALATION_MAX`: largest number of Reset Escalator runs in one transfer. -/
  escalationMax : Nat
  /-- `DUMMY_FILL`: the byte transmitted by the receive variant. -/
  dummyFill : Byte
  /-- `CFG_INIT`: the configuration INIT writes. -/
  cfgInit : Byte
  deriving DecidableEq, Repr

/-- The default column of R6. -/
def defaultParams : Params :=
  { windowMax := 255, escalationMax := 2, dummyFill := 0xFF#8, cfgInit := cfgInit }

/-- The legal range of R6: `WINDOW_MAX >= 1`; `ESCALATION_MAX >= 0` holds of every natural number. -/
def Params.legal (p : Params) : Bool := decide (1 ≤ p.windowMax)

/-- `ceil(log2(n))`. -/
def ceilLog2 (n : Nat) : Nat := if n ≤ 1 then 0 else Nat.log2 (n - 1) + 1

/-- `WINDOW_BITS = ceil(log2(WINDOW_MAX + 1))` (R7). -/
def Params.windowBits (p : Params) : Nat := ceilLog2 (p.windowMax + 1)

/-- `ESC_BITS = max(1, ceil(log2(ESCALATION_MAX + 1)))` (R7). -/
def Params.escBits (p : Params) : Nat := max 1 (ceilLog2 (p.escalationMax + 1))

end Sys2Proof.Config
end

