-- ==== Sys2Proof/Machine/State.lean ====
section
/-! DEFINITION. The state of SPIM (10_state.md), of the peripheral behind the register interface (20_memory.md), of
the caller's side, and the model's own bookkeeping; the faults and refusals; the state after power-on reset. -/

namespace Sys2Proof.Machine

/-- `phase`, the program counter: one of seventeen named values (R21). Codes 17 to 31 have no value here (R90 (d)). -/
inductive Phase where
  | idle | initCfg | initSs | initEn | drain | select | load | polling
  | escDis1 | escEn1 | escDrain | escClr | escDis2 | escEn2 | succeeded | collect | timedout
  deriving DecidableEq, Repr

/-- `variant`, one bit: 0 = send, 1 = receive (R22). -/
inductive Variant where
  | send | receive
  deriving DecidableEq, Repr

/-- `result` as the sum type R26 asks for. -/
inductive Result where
  | none | ack | byte (v : Byte) | timeout
  deriving DecidableEq, Repr

/-- The five populated locations of the register interface (R51). -/
inductive Loc where
  | data | stat | ctrl | cfg | ssport
  deriving DecidableEq, Repr

/-- The events of the observable trace (R33). -/
inductive Event where
  /-- (a) a register-interface access: the request word, and the response byte of a read. -/
  | access (req : BitVec 12) (resp : Option Byte)
  /-- (b) `RESET_BEGIN(k)`. -/
  | resetBegin (k : Nat)
  /-- (c) `RESULT(r)`. -/
  | result (r : Result)
  /-- (d) `ACCEPT(c)`. -/
  | accept (c : BitVec 10)
  deriving DecidableEq, Repr

/-- The environment that stands behind the register interface (R67 to R69; log 5). -/
inductive Env where
  /-- The unconstrained oracle of R67. -/
  | bare
  /-- `P_contract` of R68. The list says, step by step, whether `complete(v)` is taken before the next step and with
  which `v`; when it is used up both are draws (log 8). -/
  | contract (plan : List (Option Byte))
  /-- `AlwaysReady(d)` of R69. -/
  | alwaysReady (d : Byte)
  /-- `NeverReady` of R69. -/
  | neverReady
  /-- `ReadyAtPoll(n, d)` of R69. -/
  | readyAtPoll (n : Nat) (d : Byte)
  /-- Answers given one by one, as in programs P2 and P4 of 95_test_vectors.md; draws once used up. -/
  | script (stat : List Byte) (data : List Byte)
  deriving DecidableEq, Repr

/-- The register-interface space as a list of (address, byte) pairs: addresses strictly rising, and no entry equal
to what an unlisted address reads as (Machine/Memory.lean). -/
abbrev Memory := List Host.Cell

structure State where
  /-- R21: the program counter. -/
  phase : Phase
  /-- R22. -/
  variant : Variant
  /-- R23: the outgoing byte. -/
  tx : Byte
  /-- R24: the poll countdown counter. -/
  window : Nat
  /-- R25: the escalation counter. -/
  esc : Nat
  /-- R26: the outcome of the last command. -/
  result : Result
  /-- R27: INIT has run to completion. -/
  initDone : Bool
  /-- R30, R51: the five locations, by address. -/
  mem : Memory
  /-- R34 (a), R68: an exchange is in flight. -/
  inflight : Bool
  /-- R68: the byte being exchanged. -/
  out : Byte
  /-- R33: the observable trace, oldest first. -/
  trace : List Event
  /-- R6, R40: the parameters; no step writes them (log 4). -/
  params : Config.Params
  /-- R37: `variant`, `tx`, `window`, `esc` have been written (log 1). -/
  callWritten : Bool
  /-- R67 to R69: the environment (log 5). -/
  env : Env
  /-- R69: RD_STAT accesses of the current call, "counted per call". -/
  polls : Nat
  /-- R11: how many free values have been drawn (log 9). -/
  draws : Nat
  /-- R92, R100: the command words the caller has still to issue, in order. -/
  program : List (BitVec 10)
  /-- A word presented now, whatever the phase: an `Issue(c)` (R100, R101), or a bench word (log 13). -/
  port : Option TableWord
  /-- R200: the power-on event is presented (log 16). -/
  powerOn : Bool
  deriving DecidableEq, Repr

/-- Why the machine stops with a fault. -/
inductive Fault where
  /-- Raised by LOAD (`tx`), POLLING with the flag clear (`window`, `esc`), ESC_DIS1 (`esc`), ESC_EN2 (`esc`) and
  COLLECT (`variant`) when they read a register before SEND or RECEIVE wrote it: "a model must treat a read before the
  first write as a fault" (R37), "unspecified registers fault on read" (D23). Safe: no run from reset reaches it. -/
  | callRegisterUnwritten
  deriving DecidableEq, Repr

/-- Why a step has no meaning. -/
inductive Refusal where
  /-- Raised by an arm of `exec` that has no meaning yet. Safe. -/
  | notModelled (mnemonic : String)
  /-- Raised by INIT, SEND and RECEIVE while `phase != IDLE` (R101). Safe. -/
  | busy
  /-- Raised by `step` on a host word with `op = 0b00` (R90 (a), R101). Safe. -/
  | reservedCommand
  /-- Raised by SEND and RECEIVE while `init_done = 0` (R101). Safe. -/
  | notInitialised
  /-- Raised by INIT while `init_done = 1` (R101). Safe. -/
  | initRepeated
  /-- Raised by the power-on event while `phase != IDLE` (R200). Safe. -/
  | resetWhileBusy
  /-- Raised by the power-on event in IDLE after a command: R200 lets it occur "only before the first command"
  (log 16). Safe. -/
  | resetAfterCommand
  /-- Raised by `step` on a bench request word R90 (c) gives no meaning (log 13). Safe. -/
  | unissuedRequest
  /-- Raised by `step` on a bench result word of R90 (b) (log 13). Safe. -/
  | unproducedResult
  /-- Raised by `step` on a bench phase code from 17 to 31, R90 (d) (log 13). Safe. -/
  | reservedPhase
  deriving DecidableEq, Repr

/-- Power-on reset (R37, R200). `variant`, `tx`, `window`, `esc` are unspecified there: their values are the
model's and `callWritten` marks them unwritten (log 1). Memory lists nothing, so every location reads as the free
byte of log 2. -/
def State.reset : State where
  phase := .idle
  variant := .send
  tx := 0#8
  window := 0
  esc := 0
  result := .none
  initDone := false
  mem := []
  inflight := false
  out := 0#8
  trace := []
  params := Config.defaultParams
  callWritten := false
  env := .bare
  polls := 0
  draws := 0
  program := []
  port := none
  powerOn := false

end Sys2Proof.Machine
end

