-- ==== Sys2Proof/Machine/Memory.lean ====
section
/-! DEFINITION. The register-interface space (R50, R51) as a canonical list of (address, byte) pairs: reading one
byte, writing one byte, and the canonical form. -/

namespace Sys2Proof.Machine

/-- What an unlisted address reads as: its power-on content, `any value` (R37, R202; log 2). -/
def Memory.unlisted (a : Nat) : Byte := Config.powerOnByte a

/-- One byte (R52). -/
def Memory.read : Memory → Nat → Byte
  | [], a => Memory.unlisted a
  | (k, v) :: m, a => if k = a then v else Memory.read m a

/-- The memory without any entry for an address. -/
def Memory.erase (m : Memory) (a : Nat) : Memory := m.filter (fun c => c.1 != a)

/-- Puts an entry before the first one of a larger address. -/
def Memory.insert (a : Nat) (v : Byte) : Memory → Memory
  | [] => [(a, v)]
  | (k, x) :: m => if a < k then (a, v) :: (k, x) :: m else (k, x) :: Memory.insert a v m

/-- Stores one byte (R53); storing what an unlisted address reads as removes the entry. -/
def Memory.write (m : Memory) (a : Nat) (v : Byte) : Memory :=
  if v = Memory.unlisted a then Memory.erase m a else Memory.insert a v (Memory.erase m a)

/-- Every entry lies at `lo` or above, below address 5 (addresses 5 to 7 are not populated, R51), strictly rising,
and differs from what its address reads as when unlisted. -/
def Memory.wfFrom : Nat → Memory → Bool
  | _, [] => true
  | lo, (k, v) :: m => decide (lo ≤ k) && decide (k < 5) && (v != Memory.unlisted k) && Memory.wfFrom (k + 1) m

/-- The canonical form. -/
def Memory.wf (m : Memory) : Bool := Memory.wfFrom 0 m

/-- The 3-bit address of a location (R51). -/
def Loc.addr : Loc → BitVec 3
  | .data => 0#3
  | .stat => 1#3
  | .ctrl => 2#3
  | .cfg => 3#3
  | .ssport => 4#3

/-- The key of a location in memory. -/
def Loc.key (l : Loc) : Nat := l.addr.toNat

/-- The byte a location holds. -/
def State.loc (s : State) (l : Loc) : Byte := Memory.read s.mem l.key

/-- The state with a byte put into a location. -/
def State.setLoc (s : State) (l : Loc) (v : Byte) : State := { s with mem := Memory.write s.mem l.key v }

end Sys2Proof.Machine
end

