-- ==== Sys2Proof/Machine/Flags.lean ====
section
/-! DEFINITION. The single-bit conditions that play the part of flags (R29) and the bits of the control locations
(R51). -/

namespace Sys2Proof.Machine

/-- Bit 0 of an answer to RD_STAT; bits 7 to 1 are ignored (R58, R87). -/
def answerDone (f : Byte) : Bool := f.getLsbD 0

/-- `STAT.DONE` as the location holds it (R51). -/
def State.done (s : State) : Bool := answerDone (s.loc .stat)

/-- `CTRL.EN` (R51): 1 = enabled. -/
def State.en (s : State) : Bool := (s.loc .ctrl).getLsbD 0

/-- `SSPORT.SS_N` (R51): the level of the slave-select line, true = high = deasserted. -/
def State.ssN (s : State) : Bool := (s.loc .ssport).getLsbD 0

/-- `busy = (phase != IDLE)` (R29); it is not stored. -/
def State.busy (s : State) : Bool := s.phase != .idle

/-- A status byte with DONE cleared; the bits no rule describes are kept (log 18). -/
def clearDoneBit (v : Byte) : Byte := v &&& 0xFE#8

/-- A status byte with DONE set; the bits no rule describes are kept (log 18). -/
def setDoneBit (v : Byte) : Byte := v ||| 0x01#8

/-- `STAT.DONE <- 0` (R56, R59). -/
def State.clearDone (s : State) : State := s.setLoc .stat (clearDoneBit (s.loc .stat))

/-- `STAT.DONE <- 1`, by the peripheral only (R63). -/
def State.setDone (s : State) : State := s.setLoc .stat (setDoneBit (s.loc .stat))

/-- `result.rstat` (R26, R85). -/
def Result.rstat : Result → BitVec 2
  | .none => 0b00#2
  | .ack => 0b01#2
  | .byte _ => 0b10#2
  | .timeout => 0b11#2

/-- `result.rdata`: "the received byte when `rstat = BYTE` and `0x00` otherwise" (R26). -/
def Result.rdata : Result → Byte
  | .byte v => v
  | _ => 0#8

end Sys2Proof.Machine
end

