-- ==== Sys2Proof/Machine/Operands.lean ====
section
/-! DEFINITION. Operand forms and the words of the machine: the phase codes (R89), the result word (R84), request
words (R86), operand assembly (R83), the two counters' arithmetic (R131, R132), and where the next word comes
from. -/

namespace Sys2Proof.Machine

/-- The 5-bit code of a phase (R21, R89). -/
def phaseCode : Phase → BitVec 5
  | .idle => 0#5
  | .initCfg => 1#5
  | .initSs => 2#5
  | .initEn => 3#5
  | .drain => 4#5
  | .select => 5#5
  | .load => 6#5
  | .polling => 7#5
  | .escDis1 => 8#5
  | .escEn1 => 9#5
  | .escDrain => 10#5
  | .escClr => 11#5
  | .escDis2 => 12#5
  | .escEn2 => 13#5
  | .succeeded => 14#5
  | .collect => 15#5
  | .timedout => 16#5

/-- All phases, in the order of their codes. -/
def allPhases : List Phase :=
  [.idle, .initCfg, .initSs, .initEn, .drain, .select, .load, .polling, .escDis1] ++
  [.escEn1, .escDrain, .escClr, .escDis2, .escEn2, .succeeded, .collect, .timedout]

/-- The phase of a code, if it has one (R89, R90 (d)). -/
def phaseOfCode (w : BitVec 5) : Option Phase := allPhases.find? (fun p => phaseCode p == w)

/-- The 10-bit form of `result` (R84). -/
def Result.word (r : Result) : BitVec 10 := resultWord r.rstat r.rdata

/-- The one bit of `variant` (R22). -/
def Variant.bit : Variant → Bool
  | .send => false
  | .receive => true

/-- The request word of a read: `wdata` is 0x00 (R52, R86). -/
def readWord (l : Loc) : BitVec 12 := requestWord false l.addr 0#8

/-- The request word of a write (R53, R86). -/
def writeWord (l : Loc) (v : Byte) : BitVec 12 := requestWord true l.addr v

/-- The outgoing byte of SEND: the command's data field, "used as is" (R83). -/
def sendOperand (data : Byte) : Byte := data

/-- The outgoing byte of RECEIVE: "the operand is not taken from the word: `tx <- DUMMY_FILL`" (R83). -/
def receiveOperand (s : State) : Byte := s.params.dummyFill

/-- `window - 1`. The spec gives it "only when `window >= 1`" (R131); at 0 it states no value, and the result is a
free value of the register's range `0..WINDOW_MAX` (log 10). -/
def decrementedWindow (s : State) : Nat :=
  if 1 ≤ s.window then s.window - 1 else Config.freeNat s.draws % (s.params.windowMax + 1)

/-- `esc + 1`. The spec gives it only when `esc < ESCALATION_MAX` (R132); beyond that it states no value, and the
result is a free value of the register's range `0..ESCALATION_MAX` (log 10). -/
def incrementedEsc (s : State) : Nat :=
  if s.esc < s.params.escalationMax then s.esc + 1
  else Config.freeNat s.draws % (s.params.escalationMax + 1)

/-- The word the next step runs: a presented word first; in IDLE the caller's next command (R100); otherwise the
micro-operation `phase` selects (R21, R31). -/
def fetchWord (s : State) : TableWord :=
  match s.port with
  | some t => t
  | none =>
    match s.phase, s.program with
    | .idle, c :: _ => .command c
    | p, _ => .phase (phaseCode p)

/-- The state with that word taken: a presented word leaves the port, an issued command the caller's program. -/
def consumeWord (s : State) : State :=
  match s.port with
  | some _ => { s with port := none }
  | none =>
    match s.phase, s.program with
    | .idle, _ :: cs => { s with program := cs }
    | _, _ => s

end Sys2Proof.Machine
end

