-- ==== Sys2Proof/Machine/Peripheral.lean ====
section
/-! DEFINITION. The far side of the register interface: what answers a read, what each access does there (R56 to
R62), and the peripheral's own move between two steps of SPIM (R63 to R69). SPIM itself is defined for every
content of DATA and STAT, that is, for every answer (R67). -/

namespace Sys2Proof.Machine

/-- The byte a read of a location is answered with. The bare oracle answers what the location holds, which
`peripheralMove` draws anew after every step; the reference environments answer as R68 and R69 say. -/
def State.answer (s : State) (l : Loc) : Byte :=
  match s.env, l with
  | .contract _, .stat => zext8 s.done
  | .alwaysReady _, .stat => 0x01#8
  | .alwaysReady d, .data => d
  | .neverReady, .stat => 0x00#8
  | .readyAtPoll n _, .stat => if s.polls + 1 < n then 0x00#8 else 0x01#8
  | .readyAtPoll _ d, .data => d
  | .script st _, .stat => st.headD (s.loc .stat)
  | .script _ da, .data => da.headD (s.loc .data)
  | _, l => s.loc l

/-- `StallThenRecover(d)` = `ReadyAtPoll(WINDOW_MAX + 1, d)` (R69). -/
def stallThenRecover (p : Config.Params) (d : Byte) : Env := .readyAtPoll (p.windowMax + 1) d

/-- A script loses the answer a read has used. -/
def Env.afterRead : Env → Loc → Env
  | .script st da, .stat => .script st.tail da
  | .script st da, .data => .script st da.tail
  | e, _ => e

/-- What a read does on the far side: a DATA read clears STAT.DONE (R56); a STAT read has no side effect (R58) and
is counted (R69). CTRL, CFG and SSPORT are never read (R74). -/
def afterRead (l : Loc) (s : State) : State :=
  match l with
  | .data => { s.clearDone with env := s.env.afterRead .data }
  | .stat => { s with polls := s.polls + 1, env := s.env.afterRead .stat }
  | _ => s

/-- Is the environment `P_contract`? -/
def Env.isContract : Env → Bool
  | .contract _ => true
  | _ => false

/-- A DATA write starts an exchange of the byte (R57, R68). The write does not change what a read answers and does
not set or clear STAT.DONE. While an exchange is in flight or `CTRL.EN = 0` no rule says what it does: `P_contract`
then gives way to the bare oracle, "`any value` for all later answers" (U4; log 7). -/
def startExchange (b : Byte) (s : State) : State :=
  { s with
    inflight := true
    out := b
    env := if s.env.isContract && (s.inflight || !s.en) then .bare else s.env }

/-- DATA and STAT taken as `any value` (U1, U2, U3). -/
def drawLocations (s : State) : State :=
  { (s.setLoc .data (Config.freeByte s.draws)).setLoc .stat (Config.freeByte (s.draws + 1)) with
    draws := s.draws + 2 }

/-- A CTRL write stores the enable bit; a disable abandons the exchange in flight (R60). What it does to DATA and
STAT is not stated: in the bare environment they become `any value` (U3), the reference environments keep them
(R68, R69; log 6). -/
def writeEnable (v : Byte) (s : State) : State :=
  let stored := s.setLoc .ctrl v
  let abandoned := { stored with inflight := s.inflight && v.getLsbD 0 }
  match s.env with
  | .bare => drawLocations abandoned
  | _ => abandoned

/-- What a write does on the far side (R57, R59 to R62). The payload of a STAT write is always 0x00 and of a CFG
write carries no information. -/
def afterWrite (l : Loc) (v : Byte) (s : State) : State :=
  match l with
  | .data => startExchange v s
  | .stat => s.clearDone
  | .ctrl => writeEnable v s
  | .cfg => s.setLoc .cfg s.params.cfgInit
  | .ssport => s.setLoc .ssport v

/-- The peripheral's own step `complete(v)`, "enabled when `inflight` and `en = 1`" (R63, R68). -/
def complete (v : Byte) (s : State) : State :=
  if s.inflight && s.en then { (s.setLoc .data v).setDone with inflight := false } else s

/-- The bare oracle's move: DATA and STAT become `any value`, and an exchange in flight may have ended (R64, R67). -/
def bareMove (s : State) : State :=
  { drawLocations s with inflight := s.inflight && Config.freeBool s.draws }

/-- `P_contract`'s move: it completes or does not, as its plan says, then as drawn (R63, R64, R68; log 8). -/
def contractMove (plan : List (Option Byte)) (s : State) : State :=
  match plan with
  | none :: rest => { s with env := .contract rest }
  | some v :: rest => complete v { s with env := .contract rest }
  | [] =>
    let drawn := { s with draws := s.draws + 1 }
    if Config.freeBool s.draws then complete (Config.freeByte s.draws) drawn else drawn

/-- Until the INIT_SS step the level of the slave-select line is `any value` (R203, R212; log 3). -/
def lineUndriven (s : State) : Bool := !s.initDone && s.phase != .initEn

/-- The undriven line may take any level. -/
def driftLine (s : State) : State :=
  if lineUndriven s then
    { s.setLoc .ssport (Config.freeByte s.draws) with draws := s.draws + 1 }
  else s

/-- What the environment does between two steps of SPIM (R31, R63, R67 to R69). -/
def environmentMove (s : State) : State :=
  match s.env with
  | .bare => bareMove s
  | .contract plan => contractMove plan s
  | .alwaysReady d => s.setLoc .data d
  | .neverReady => drawLocations s
  | .readyAtPoll _ d => s.setLoc .data d
  | .script _ _ => drawLocations s

/-- The whole move between two steps: the environment, then the undriven line. -/
def peripheralMove (s : State) : State := driftLine (environmentMove s)

/-- A step's outcome with the peripheral's move after it; a fault or a refusal stops before it. -/
def settle (o : Host.Outcome State Fault Refusal) : Host.Outcome State Fault Refusal :=
  match o with
  | .next s => .next (peripheralMove s)
  | .fault f => .fault f
  | .refused r => .refused r

end Sys2Proof.Machine
end

