-- ==== Sys2Proof/Machine/Ops.lean ====
section
/-! DEFINITION. The named operations the meanings share: the access primitives (R52, R53), the trace (R33), command
acceptance (R100), the result (R108), taking the one exception and returning (R173, R177), power-on reset (R200). -/

namespace Sys2Proof.Machine

/-- `phase <- p`. -/
def State.goto (s : State) (p : Phase) : State := { s with phase := p }

/-- `emit e` (R11, R33). -/
def State.emit (s : State) (e : Event) : State := { s with trace := s.trace ++ [e] }

/-- `result <- r` (R26). -/
def State.setResult (s : State) (r : Result) : State := { s with result := r }

/-- `window <- w` (R24). -/
def State.setWindow (s : State) (w : Nat) : State := { s with window := w }

/-- `init_done <- 1` (R27). -/
def State.setInitDone (s : State) : State := { s with initDone := true }

/-- `MemRead(a, 1)` as a change of state: the far side's effect, then the access with its response on the trace
(R52). The byte it answers is `State.answer` of the state before. -/
def memRead (l : Loc) (s : State) : State :=
  (afterRead l s).emit (.access (readWord l) (some (s.answer l)))

/-- `MemWrite(a, 1, v)` (R53): no response. -/
def memWrite (l : Loc) (v : Byte) (s : State) : State :=
  (afterWrite l v s).emit (.access (writeWord l v) none)

/-- A read of `variant`, `tx`, `window` or `esc`: "a model must treat a read before the first write as a fault" (R37;
U8 and D23 say the same; log 1). -/
def readingCallRegisters (s : State) (next : State) : Host.Outcome State Fault Refusal :=
  if s.callWritten then .next next else .fault .callRegisterUnwritten

/-- What the acceptance of any command does: `emit ACCEPT(c); result <- NONE` (R100). -/
def acceptCommand (c : BitVec 10) (s : State) : State := (s.emit (.accept c)).setResult .none

/-- The acceptance of SEND or RECEIVE: Retry State "Created fresh per call" (R106, R107). -/
def acceptTransfer (c : BitVec 10) (v : Variant) (b : Byte) (s : State) : State :=
  { acceptCommand c s with
    variant := v
    tx := b
    esc := 0
    window := s.params.windowMax
    callWritten := true
    polls := 0
    phase := .drain }

/-- A command is accepted only in IDLE; otherwise `refuse(busy)` (R100, R101). -/
def whenIdle (s : State) (o : Host.Outcome State Fault Refusal) : Host.Outcome State Fault Refusal :=
  if s.busy then .refused .busy else o

/-- Result delivery: `result` is written and `RESULT(result)` emitted in the same step (R108). -/
def postResult (r : Result) (s : State) : State := (s.setResult r).emit (.result r)

/-- `raise Timeout()` (R173): "`window <- 0` and `phase <- TIMEDOUT`; nothing else". -/
def raiseTimeout (s : State) : State := (s.setWindow 0).goto .timedout

/-- The return to the caller, `phase <- IDLE`; "nothing is restored because nothing was saved" (R177). -/
def returnToCaller (s : State) : State := s.goto .idle

/-- The unsuccessful poll of R124: the counters, then wait, escalate or raise Timeout. -/
def countPoll (s : State) : State :=
  let w := decrementedWindow s
  let counted := { s.setWindow w with draws := if 1 ≤ s.window then s.draws else s.draws + 1 }
  if w = 0 then
    if s.esc < s.params.escalationMax then counted.goto .escDis1 else raiseTimeout counted
  else counted.goto .polling

/-- The poll of R124: the flag is tested before the counters are touched (R176). -/
def poll (s : State) : State :=
  if answerDone (s.answer .stat) then (memRead .stat s).goto .succeeded else countPoll (memRead .stat s)

/-- The bookkeeping after the Reset Escalator's last access: `esc <- esc + 1; window <- WINDOW_MAX` (R156). -/
def reloadRetry (s : State) : State :=
  { s with
    esc := incrementedEsc s
    window := s.params.windowMax
    draws := if s.esc < s.params.escalationMax then s.draws else s.draws + 1 }

/-- Is the event an accepted command? -/
def Event.isAccept : Event → Bool
  | .accept _ => true
  | _ => false

/-- The power-on event (R200): refused in mid-command, and refused after a command ("it can occur only before the
first command"; log 16). It makes no access and does not drive the slave-select line. -/
def powerOnReset (s : State) : Host.Outcome State Fault Refusal :=
  if s.busy then .refused .resetWhileBusy
  else if s.trace.any Event.isAccept then .refused .resetAfterCommand
  else .next
    { s with phase := .idle, result := .none, initDone := false, trace := [], callWritten := false, powerOn := false }

/-- The refusal a word that does not decode gives (R90). -/
def refusalOf : DecodeError → Refusal
  | .reservedCommand => .reservedCommand
  | .unproducedResult => .unproducedResult
  | .unissuedRequest => .unissuedRequest
  | .reservedPhase => .reservedPhase

end Sys2Proof.Machine
end

