-- ==== Sys2Proof/Machine/Accesses.lean ====
section
/-! DEFINITION. The seven register-interface accesses (R56 to R62, R88), each as one access on its own; `phase` and
the other registers of SPIM belong to the micro-operation that makes the access (log 13). -/

namespace Sys2Proof.Machine

/-- RD_DATA (R56). -/
def execRdData (s : State) : Host.Outcome State Fault Refusal := .next (memRead .data s)

/-- WR_DATA b (R57). -/
def execWrData (b : Byte) (s : State) : Host.Outcome State Fault Refusal := .next (memWrite .data b s)

/-- RD_STAT (R58). -/
def execRdStat (s : State) : Host.Outcome State Fault Refusal := .next (memRead .stat s)

/-- CLR_STAT (R59). -/
def execClrStat (s : State) : Host.Outcome State Fault Refusal := .next (memWrite .stat 0x00#8 s)

/-- WR_EN e (R60). -/
def execWrEn (e : Bool) (s : State) : Host.Outcome State Fault Refusal := .next (memWrite .ctrl (zext8 e) s)

/-- WR_CFG (R61). -/
def execWrCfg (s : State) : Host.Outcome State Fault Refusal := .next (memWrite .cfg 0x00#8 s)

/-- SET_SS l (R62). -/
def execSetSs (l : Bool) (s : State) : Host.Outcome State Fault Refusal := .next (memWrite .ssport (zext8 l) s)

end Sys2Proof.Machine
end

