-- ==== Sys2Proof/Machine/Commands.lean ====
section
/-! DEFINITION. The host commands INIT, SEND, RECEIVE (40_host_commands.md): issue, acceptance, refusal. -/

namespace Sys2Proof.Machine

/-- INIT (R102): accepted in IDLE with `init_done = 0`; a second INIT is `refuse(init_repeated)` (R101). -/
def execInit (data : Byte) (s : State) : Host.Outcome State Fault Refusal :=
  whenIdle s
    (if s.initDone then .refused .initRepeated
     else .next ((acceptCommand (commandWord 0b01#2 data) s).goto .initCfg))

/-- SEND b (R106): accepted in IDLE with `init_done = 1`, else `refuse(not_initialised)` (R101). -/
def execSend (data : Byte) (s : State) : Host.Outcome State Fault Refusal :=
  whenIdle s
    (if s.initDone then .next (acceptTransfer (commandWord 0b10#2 data) .send (sendOperand data) s)
     else .refused .notInitialised)

/-- RECEIVE (R107): accepted in IDLE with `init_done = 1`, else `refuse(not_initialised)` (R101). -/
def execReceive (data : Byte) (s : State) : Host.Outcome State Fault Refusal :=
  whenIdle s
    (if s.initDone then .next (acceptTransfer (commandWord 0b11#2 data) .receive (receiveOperand s) s)
     else .refused .notInitialised)

end Sys2Proof.Machine
end

