-- ==== Sys2Proof/Machine/Escalator.lean ====
section
/-! DEFINITION. The micro-operations of the Reset Escalator (R150 to R156). -/

namespace Sys2Proof.Machine

/-- ESC_DIS1 (R151): operand `esc`, for the marker RESET_BEGIN(esc + 1). -/
def execEscDis1 (s : State) : Host.Outcome State Fault Refusal :=
  readingCallRegisters s ((memWrite .ctrl 0x00#8 (s.emit (.resetBegin (s.esc + 1)))).goto .escEn1)

/-- ESC_EN1 (R152). -/
def execEscEn1 (s : State) : Host.Outcome State Fault Refusal := .next ((memWrite .ctrl 0x01#8 s).goto .escDrain)

/-- ESC_DRAIN (R153): the value read is dropped. -/
def execEscDrain (s : State) : Host.Outcome State Fault Refusal := .next ((memRead .data s).goto .escClr)

/-- ESC_CLR (R154). -/
def execEscClr (s : State) : Host.Outcome State Fault Refusal := .next ((memWrite .stat 0x00#8 s).goto .escDis2)

/-- ESC_DIS2 (R155). -/
def execEscDis2 (s : State) : Host.Outcome State Fault Refusal := .next ((memWrite .ctrl 0x00#8 s).goto .escEn2)

/-- ESC_EN2 (R156): operand `esc`; the increment and the reload come after the access, in the same step. -/
def execEscEn2 (s : State) : Host.Outcome State Fault Refusal :=
  readingCallRegisters s ((reloadRetry (memWrite .ctrl 0x01#8 s)).goto .polling)

end Sys2Proof.Machine
end

