-- ==== Sys2Proof/Machine/InitSequence.lean ====
section
/-! DEFINITION. The micro-operations of INIT (R103 to R105). -/

namespace Sys2Proof.Machine

/-- INIT_CFG (R103). -/
def execInitCfg (s : State) : Host.Outcome State Fault Refusal :=
  .next ((memWrite .cfg 0x00#8 s).goto .initSs)

/-- INIT_SS (R104). -/
def execInitSs (s : State) : Host.Outcome State Fault Refusal :=
  .next ((memWrite .ssport 0x01#8 s).goto .initEn)

/-- INIT_EN (R105): `result` stays NONE and no RESULT event is emitted. -/
def execInitEn (s : State) : Host.Outcome State Fault Refusal :=
  .next (returnToCaller (memWrite .ctrl 0x01#8 s).setInitDone)

end Sys2Proof.Machine
end

