-- ==== Sys2Proof/Machine/Results.lean ====
section
/-! DEFINITION. The result words NONE, ACK, BYTE, TIMEOUT (R85) as instructions: each is the writing of that word
into `result`, as its producer does it (R26, R100, R108; log 14). -/

namespace Sys2Proof.Machine

/-- NONE: `result <- NONE`, with no RESULT event ("No return value", R85, R100, R105). -/
def execResNone (s : State) : Host.Outcome State Fault Refusal := .next (s.setResult .none)

/-- ACK (R85, R126). -/
def execResAck (s : State) : Host.Outcome State Fault Refusal := .next (postResult .ack s)

/-- BYTE v (R85, R126). -/
def execResByte (v : Byte) (s : State) : Host.Outcome State Fault Refusal := .next (postResult (.byte v) s)

/-- TIMEOUT (R85, R127). -/
def execResTimeout (s : State) : Host.Outcome State Fault Refusal := .next (postResult .timeout s)

end Sys2Proof.Machine
end

