-- ==== Sys2Proof/Machine/Transfer.lean ====
section
/-! DEFINITION. The micro-operations of the Transfer Engine (R121 to R128). -/

namespace Sys2Proof.Machine

/-- IDLE (R128): no access, no change of SPIM; "`IDLE` persists for ever if no command comes" (log 15). -/
def execIdle (s : State) : Host.Outcome State Fault Refusal := .next s

/-- DRAIN (R121): the value read is dropped. -/
def execDrain (s : State) : Host.Outcome State Fault Refusal := .next ((memRead .data s).goto .select)

/-- SELECT (R122): the line is driven low. -/
def execSelect (s : State) : Host.Outcome State Fault Refusal := .next ((memWrite .ssport 0x00#8 s).goto .load)

/-- LOAD (R123): operand `tx`. -/
def execLoad (s : State) : Host.Outcome State Fault Refusal :=
  readingCallRegisters s ((memWrite .data s.tx s).goto .polling)

/-- POLLING (R124): one RD_STAT; operands `window` and `esc`, which are read only when the flag is clear. -/
def execPolling (s : State) : Host.Outcome State Fault Refusal :=
  if answerDone (s.answer .stat) then .next (poll s) else readingCallRegisters s (poll s)

/-- SUCCEEDED (R125): the line is driven high. -/
def execSucceeded (s : State) : Host.Outcome State Fault Refusal := .next ((memWrite .ssport 0x01#8 s).goto .collect)

/-- What COLLECT makes of the byte it read: BYTE v for receive, ACK for send (R126). -/
def collected (s : State) : Result :=
  match s.variant with
  | .receive => .byte (s.answer .data)
  | .send => .ack

/-- COLLECT (R126): operand `variant`; exactly one RD_DATA for either variant. -/
def execCollect (s : State) : Host.Outcome State Fault Refusal :=
  readingCallRegisters s (returnToCaller (postResult (collected s) (memRead .data s)))

/-- TIMEDOUT, the handler of Timeout (R127, R173): the line is driven high on this path too. -/
def execTimedout (s : State) : Host.Outcome State Fault Refusal :=
  .next (returnToCaller (postResult .timeout (memWrite .ssport 0x01#8 s)))

end Sys2Proof.Machine
end

