-- ==== Sys2Proof/Machine/Dispatch.lean ====
section
/-! DEFINITION. One arm per instruction. -/

namespace Sys2Proof.Machine

def exec (i : Instr) (s : State) : Host.Outcome State Fault Refusal :=
  match i with
  | .init data => Sys2Proof.Machine.execInit data s
  | .send data => Sys2Proof.Machine.execSend data s
  | .receive data => Sys2Proof.Machine.execReceive data s
  | .resNone => Sys2Proof.Machine.execResNone s
  | .resAck => Sys2Proof.Machine.execResAck s
  | .resByte v => Sys2Proof.Machine.execResByte v s
  | .resTimeout => Sys2Proof.Machine.execResTimeout s
  | .rdData => Sys2Proof.Machine.execRdData s
  | .wrData b => Sys2Proof.Machine.execWrData b s
  | .rdStat => Sys2Proof.Machine.execRdStat s
  | .clrStat => Sys2Proof.Machine.execClrStat s
  | .wrEn e => Sys2Proof.Machine.execWrEn e s
  | .wrCfg => Sys2Proof.Machine.execWrCfg s
  | .setSs l => Sys2Proof.Machine.execSetSs l s
  | .idle => Sys2Proof.Machine.execIdle s
  | .initCfg => Sys2Proof.Machine.execInitCfg s
  | .initSs => Sys2Proof.Machine.execInitSs s
  | .initEn => Sys2Proof.Machine.execInitEn s
  | .drain => Sys2Proof.Machine.execDrain s
  | .select => Sys2Proof.Machine.execSelect s
  | .load => Sys2Proof.Machine.execLoad s
  | .polling => Sys2Proof.Machine.execPolling s
  | .escDis1 => Sys2Proof.Machine.execEscDis1 s
  | .escEn1 => Sys2Proof.Machine.execEscEn1 s
  | .escDrain => Sys2Proof.Machine.execEscDrain s
  | .escClr => Sys2Proof.Machine.execEscClr s
  | .escDis2 => Sys2Proof.Machine.execEscDis2 s
  | .escEn2 => Sys2Proof.Machine.execEscEn2 s
  | .succeeded => Sys2Proof.Machine.execSucceeded s
  | .collect => Sys2Proof.Machine.execCollect s
  | .timedout => Sys2Proof.Machine.execTimedout s

end Sys2Proof.Machine
end

