-- ==== Sys2Proof/Machine/Fetch.lean ====
section
/-! DEFINITION. How a word given from outside is put where the next step takes it (log 12). -/

namespace Sys2Proof.Machine

/-- A phase code becomes the value of `phase`. Such a phase runs only inside a call, whose acceptance wrote the four
call registers, so they count as written; IDLE is selected only with no command waiting. -/
def placePhase (s : State) (w : BitVec 5) : State :=
  match phaseOfCode w with
  | some p =>
    { s with
      phase := p
      port := none
      powerOn := false
      program := if p = .idle then [] else s.program
      callWritten := true }
  | none => { s with port := some (.phase w), powerOn := false }

/-- A host word becomes the caller's next command, in IDLE, on the side of INIT where R101 accepts it: INIT before
initialisation, SEND and RECEIVE after it. -/
def placeCommand (s : State) (w : BitVec 10) : State :=
  { s with
    phase := .idle
    port := none
    powerOn := false
    program := w :: s.program
    initDone := decide ((w.extractLsb' 8 2).toNat ≠ 1) }

/-- An access or a result word is presented on the bench port. -/
def placeBench (s : State) (t : TableWord) : State := { s with port := some t, powerOn := false }

/-- Any word, by its format. -/
def placeWord (s : State) (t : TableWord) : State :=
  match t with
  | .phase w => placePhase s w
  | .command w => placeCommand s w
  | .request _ => placeBench s t
  | .result _ => placeBench s t

end Sys2Proof.Machine
end

