-- ==== Sys2Proof/Machine/Step.lean ====
section
/-! DEFINITION. One step: the power-on event if it is presented, else the word `fetchWord` names is decoded and run,
and then the peripheral makes its own move (R31, R67). -/

namespace Sys2Proof.Machine

def step (s : State) : Host.Outcome State Fault Refusal :=
  if s.powerOn then settle (powerOnReset s)
  else
    match decode (fetchWord s) with
    | .ok i => settle (exec i (consumeWord s))
    | .error e => .refused (refusalOf e)

/-- The state with the instruction of a bare number placed where the next step takes it (log 11, log 12). A number
no format reads as an instruction is presented as the reserved host word 0. -/
def State.withFetchWord (s : State) (nbits w : Nat) : State :=
  match tableWordOf nbits w with
  | some t => placeWord s t
  | none => { s with port := some (.command 0#10), powerOn := false }

end Sys2Proof.Machine
end

