-- ==== Sys2Proof/Safety.lean ====
section
/-! DEFINITION. What the statements are about: the micro-operation of a phase, the groups of phases, what a trace
shows of the current call, the frame of a step, and the invariants of the machine (R35, R36, R130 to R136). -/

namespace Sys2Proof.Machine

/-- The micro-operation a phase performs (R21, R89). -/
def microOp : Phase → Instr
  | .idle => .idle
  | .initCfg => .initCfg
  | .initSs => .initSs
  | .initEn => .initEn
  | .drain => .drain
  | .select => .select
  | .load => .load
  | .polling => .polling
  | .escDis1 => .escDis1
  | .escEn1 => .escEn1
  | .escDrain => .escDrain
  | .escClr => .escClr
  | .escDis2 => .escDis2
  | .escEn2 => .escEn2
  | .succeeded => .succeeded
  | .collect => .collect
  | .timedout => .timedout

/-- The phases of INIT. -/
def Phase.initialising : Phase → Bool
  | .initCfg | .initSs | .initEn => true
  | _ => false

/-- The document's state `Escalating`: "the set of codes 8 to 13" (R89, R129). -/
def Phase.escalating : Phase → Bool
  | .escDis1 | .escEn1 | .escDrain | .escClr | .escDis2 | .escEn2 => true
  | _ => false

/-- The phases of a SEND or RECEIVE. -/
def Phase.transferring (p : Phase) : Bool := p != .idle && !p.initialising

/-- The phases in which R35 says `SSPORT.SS_N = 0`. -/
def Phase.lineLow : Phase → Bool
  | .load | .polling | .succeeded | .timedout => true
  | p => p.escalating

/-- The request word a phase presents (R74); IDLE presents none. -/
def requestOfPhase (s : State) : Phase → Option (BitVec 12)
  | .idle => none
  | .initCfg => some 0xB00#12
  | .initSs => some 0xC01#12
  | .initEn => some 0xA01#12
  | .drain => some 0x000#12
  | .select => some 0xC00#12
  | .load => some (0x800#12 + s.tx.setWidth 12)
  | .polling => some 0x100#12
  | .escDis1 => some 0xA00#12
  | .escEn1 => some 0xA01#12
  | .escDrain => some 0x000#12
  | .escClr => some 0x900#12
  | .escDis2 => some 0xA00#12
  | .escEn2 => some 0xA01#12
  | .succeeded => some 0xC01#12
  | .collect => some 0x000#12
  | .timedout => some 0xC01#12

/-- The successors R120 and R41 give a phase. -/
def successors : Phase → List Phase
  | .idle => [.initCfg, .drain]
  | .initCfg => [.initSs]
  | .initSs => [.initEn]
  | .initEn => [.idle]
  | .drain => [.select]
  | .select => [.load]
  | .load => [.polling]
  | .polling => [.succeeded, .polling, .escDis1, .timedout]
  | .escDis1 => [.escEn1]
  | .escEn1 => [.escDrain]
  | .escDrain => [.escClr]
  | .escClr => [.escDis2]
  | .escDis2 => [.escEn2]
  | .escEn2 => [.polling]
  | .succeeded => [.collect]
  | .collect => [.idle]
  | .timedout => [.idle]

/-! ## What the trace shows of the current call -/

/-- The events since the last accepted command. -/
def callTrace (tr : List Event) : List Event :=
  tr.foldl (fun acc e => if e.isAccept then [] else acc ++ [e]) []

/-- How often a request word occurs in a call. -/
def requestCount (w : BitVec 12) (tr : List Event) : Nat :=
  tr.countP (fun e => match e with | .access r _ => r == w | _ => false)

/-- The polls of a call: RD_STAT accesses. -/
def pollCount (tr : List Event) : Nat := requestCount 0x100#12 tr

/-- The assertions of the slave-select line in a call: SET_SS 0. -/
def fallCount (tr : List Event) : Nat := requestCount 0xC00#12 tr

/-- The deassertions of the slave-select line in a call: SET_SS 1. -/
def riseCount (tr : List Event) : Nat := requestCount 0xC01#12 tr

/-- The DATA writes of a call: request words 0x800 to 0x8FF. -/
def loadCount (tr : List Event) : Nat :=
  tr.countP (fun e => match e with | .access r _ => r.extractLsb' 8 4 == 8#4 | _ => false)

/-- The Reset Escalator runs a call shows: RESET_BEGIN markers. -/
def resetCount (tr : List Event) : Nat :=
  tr.countP (fun e => match e with | .resetBegin _ => true | _ => false)

/-- All accesses of a call. -/
def accessCount (tr : List Event) : Nat :=
  tr.countP (fun e => match e with | .access _ _ => true | _ => false)

/-- The RESULT events of a call. -/
def resultCount (tr : List Event) : Nat :=
  tr.countP (fun e => match e with | .result _ => true | _ => false)

/-- The accesses of a trace, in order. -/
def accessesOf (tr : List Event) : List (BitVec 12 × Option Byte) :=
  tr.filterMap (fun e => match e with | .access r v => some (r, v) | _ => none)

/-! ## The frame -/

/-- Everything of SPIM but `phase`, `trace`, `window` and `esc` is as before, and so are the caller's side and the
configuration. -/
structure KeepsCall (s t : State) : Prop where
  variant : t.variant = s.variant
  tx : t.tx = s.tx
  result : t.result = s.result
  initDone : t.initDone = s.initDone
  callWritten : t.callWritten = s.callWritten
  params : t.params = s.params
  program : t.program = s.program
  port : t.port = s.port
  powerOn : t.powerOn = s.powerOn

/-- The two counters are as before. -/
structure KeepsCounters (s t : State) : Prop where
  window : t.window = s.window
  esc : t.esc = s.esc

/-- The peripheral's hidden exchange is as before (R34). -/
structure KeepsExchange (s t : State) : Prop where
  inflight : t.inflight = s.inflight
  out : t.out = s.out

/-- Every byte of the register-interface space outside the listed locations reads as before. -/
def KeepsBytesExcept (ls : List Loc) (s t : State) : Prop :=
  ∀ a : Nat, (∀ l ∈ ls, a ≠ l.key) → Memory.read t.mem a = Memory.read s.mem a

/-! ## Invariants -/

/-- What R36 says of the counters, phase by phase; SUCCEEDED and COLLECT keep what the last poll found, and DRAIN,
SELECT and LOAD what the acceptance loaded (R129). -/
def CountersOk (s : State) : Prop :=
  match s.phase with
  | .drain | .select | .load => s.window = s.params.windowMax ∧ s.esc = 0
  | .polling | .succeeded | .collect =>
      1 ≤ s.window ∧ s.window ≤ s.params.windowMax ∧ s.esc ≤ s.params.escalationMax
  | .timedout => s.window = 0 ∧ s.esc = s.params.escalationMax
  | .idle | .initCfg | .initSs | .initEn => True
  | .escDis1 | .escEn1 | .escDrain | .escClr | .escDis2 | .escEn2 =>
      s.window = 0 ∧ s.esc < s.params.escalationMax

/-- Is the slave-select line high by the rules: in DRAIN, SELECT, COLLECT and after INIT_SS outside a transfer
(R35, R104). -/
def lineHigh (s : State) : Bool :=
  match s.phase with
  | .drain | .select | .collect | .initEn => true
  | .idle => s.initDone
  | _ => false

/-- Is the peripheral enabled by the rules: after INIT, but between a disable and the enable that follows it
(R105, R151 to R156, R186). -/
def enabled (s : State) : Bool :=
  match s.phase with
  | .escEn1 | .escEn2 => false
  | p => s.initDone && !p.initialising

/-- The invariant of SPIM. Its `noBench` is the premise of exclusive use (R72, R206): nothing but a caller's command
is ever presented. -/
structure State.Inv (s : State) : Prop where
  legal : s.params.legal = true
  memory : Memory.wf s.mem = true
  noBench : ∀ t, s.port = some t → ∃ c, t = .command c
  initialised : s.phase.transferring = true → s.initDone = true ∧ s.callWritten = true
  initialising : s.phase.initialising = true → s.initDone = false
  noResult : s.phase ≠ .idle ∨ s.initDone = false → s.result = .none
  range : s.window ≤ s.params.windowMax ∧ s.esc ≤ s.params.escalationMax
  counters : CountersOk s
  line : (s.phase.lineLow = true → s.ssN = false) ∧ (lineHigh s = true → s.ssN = true)
  enable : enabled s = true → s.en = true
  disable : s.phase = .escEn1 ∨ s.phase = .escEn2 → s.en = false
  configured : s.initDone = true ∨ s.phase = .initSs ∨ s.phase = .initEn → s.loc .cfg = s.params.cfgInit

/-- Access count of a transfer in a phase, less its polls and six per finished reset (R130, R133). -/
def accessIndex : Phase → Nat
  | .select => 1
  | .load => 2
  | .polling | .escDis1 | .succeeded | .timedout => 3
  | .escEn1 | .collect => 4
  | .escDrain => 5
  | .escClr => 6
  | .escDis2 => 7
  | .escEn2 => 8
  | _ => 0

/-- What the trace of a running transfer shows (R35, R36, R123, R130, R133, R135, R136, R158, R161): one assertion
of the line after SELECT, one deassertion after SUCCEEDED, one DATA write after LOAD, no RESULT yet, the markers and
polls the counters say, and the accesses so far. -/
def RunningCallOk (s : State) : Prop :=
  let call := callTrace s.trace
  fallCount call = (if s.phase = .drain ∨ s.phase = .select then 0 else 1) ∧
  riseCount call = (if s.phase = .collect then 1 else 0) ∧
  loadCount call = (if s.phase = .drain ∨ s.phase = .select ∨ s.phase = .load then 0 else 1) ∧
  resultCount call = 0 ∧
  resetCount call = (if s.phase.escalating ∧ s.phase ≠ .escDis1 then s.esc + 1 else s.esc) ∧
  pollCount call + s.window =
    (s.esc + 1) * s.params.windowMax + (if s.phase = .succeeded ∨ s.phase = .collect then 1 else 0) ∧
  accessCount call = accessIndex s.phase + pollCount call + 6 * s.esc

/-- What the trace of a finished transfer shows: the line fell and rose once, one DATA write, exactly one RESULT, its
last event (R135, R136); at most `(ESCALATION_MAX + 1) * WINDOW_MAX` polls and `ESCALATION_MAX` resets, exactly so
many on a timeout (R133, R158); and the accesses of R130. -/
def FinishedCallOk (s : State) : Prop :=
  let call := callTrace s.trace
  fallCount call = 1 ∧ riseCount call = 1 ∧ loadCount call = 1 ∧ resultCount call = 1 ∧
  call.getLast? = some (.result s.result) ∧
  resetCount call ≤ s.params.escalationMax ∧
  pollCount call ≤ (s.params.escalationMax + 1) * s.params.windowMax ∧
  (s.result = .timeout →
    resetCount call = s.params.escalationMax ∧
    pollCount call = (s.params.escalationMax + 1) * s.params.windowMax) ∧
  accessCount call = (if s.result = .timeout then 4 else 5) + pollCount call + 6 * resetCount call

/-- The call's trace in any state: of a running transfer, or of the last one while its result stands. -/
def CallOk (s : State) : Prop :=
  (s.phase.transferring = true → RunningCallOk s) ∧ (s.phase = .idle → s.result ≠ .none → FinishedCallOk s)

/-- The request words of a trace, in order. -/
def requestsOf (tr : List Event) : List (BitVec 12) :=
  tr.filterMap (fun e => match e with | .access r _ => some r | _ => none)

/-- The six accesses of one Reset Escalator run (R150). -/
def resetRequests : List (BitVec 12) := [0xA00#12, 0xA01#12, 0x000#12, 0x900#12, 0xA00#12, 0xA01#12]

/-- A window that was used up, with the reset that followed it (R130). -/
def failedWindow (p : Config.Params) : List (BitVec 12) := List.replicate p.windowMax 0x100#12 ++ resetRequests

/-- The accesses of a call up to `n` polls of its current window (R130). -/
def pollsSoFar (s : State) (n : Nat) : List (BitVec 12) :=
  [0x000#12, 0xC00#12, 0x800#12 + s.tx.setWidth 12] ++
    (List.replicate s.esc (failedWindow s.params)).flatten ++ List.replicate n 0x100#12

/-- The accesses a running transfer has made, by its phase and counters (R130). -/
def requestsSoFar (s : State) : List (BitVec 12) :=
  match s.phase with
  | .idle | .initCfg | .initSs | .initEn | .drain => []
  | .select => [0x000#12]
  | .load => [0x000#12, 0xC00#12]
  | .polling => pollsSoFar s (s.params.windowMax - s.window)
  | .succeeded => pollsSoFar s (s.params.windowMax - s.window + 1)
  | .collect => pollsSoFar s (s.params.windowMax - s.window + 1) ++ [0xC01#12]
  | .escDis1 | .timedout => pollsSoFar s s.params.windowMax
  | .escEn1 => pollsSoFar s s.params.windowMax ++ resetRequests.take 1
  | .escDrain => pollsSoFar s s.params.windowMax ++ resetRequests.take 2
  | .escClr => pollsSoFar s s.params.windowMax ++ resetRequests.take 3
  | .escDis2 => pollsSoFar s s.params.windowMax ++ resetRequests.take 4
  | .escEn2 => pollsSoFar s s.params.windowMax ++ resetRequests.take 5

/-- The accesses of a finished transfer, by its result and the counters it leaves (R130). -/
def requestsOfCall (s : State) : List (BitVec 12) :=
  if s.result = .timeout then pollsSoFar s s.params.windowMax ++ [0xC01#12]
  else pollsSoFar s (s.params.windowMax - s.window + 1) ++ [0xC01#12, 0x000#12]

/-- The request words of the call are exactly those of R130: of a running transfer so far, or of the last one while
its result stands. -/
def ShapeOk (s : State) : Prop :=
  (s.phase.transferring = true → requestsOf (callTrace s.trace) = requestsSoFar s) ∧
  (s.phase = .idle → s.result ≠ .none → requestsOf (callTrace s.trace) = requestsOfCall s)

/-- Two runs of the one algorithm, SEND on the left and RECEIVE on the right (R109): the events agree but for the
payload of the WR_DATA, `b` against `d`, and the RESULT on success. -/
inductive TwinEvent (b d : Byte) : Event → Event → Prop where
  | same (e : Event) : TwinEvent b d e e
  | load : TwinEvent b d (.access (writeWord .data b) none) (.access (writeWord .data d) none)
  | success (v : Byte) : TwinEvent b d (.result .ack) (.result (.byte v))

/-- Two states of the two runs: equal but for `variant`, `tx`, the byte in the exchange, `result` and the trace,
whose events since the two acceptances (`xs` and `ys` stand before them) are twins. -/
structure Twins (xs ys : List Event) (s t : State) : Prop where
  rest : { t with variant := s.variant, tx := s.tx, out := s.out, result := s.result, trace := s.trace } = s
  send : s.variant = .send
  receive : t.variant = .receive
  trace : ∃ es fs, s.trace = xs ++ es ∧ t.trace = ys ++ fs ∧ List.Forall₂ (TwinEvent s.tx t.tx) es fs

/-- Under `P_contract`: outside a call, in DRAIN and from the first finished poll loop on, nothing is in flight; once
drained, DONE is clear until LOAD; while polling, in a call without a reset, the exchange in flight is that of `tx`
and the flag is set exactly when it has completed; a success in such a call stands on a completed exchange of `tx`
(R56, R57, R63, R68, R208). -/
def DeliveryOk (s : State) : Prop :=
  s.env.isContract = true →
    match s.phase with
    | .select | .load => s.inflight = false ∧ s.done = false
    | .polling =>
        if resetCount (callTrace s.trace) = 0 then s.out = s.tx ∧ s.inflight = !s.done else s.inflight = false
    | .succeeded | .collect =>
        s.inflight = false ∧ (resetCount (callTrace s.trace) = 0 → s.out = s.tx ∧ s.done = true)
    | .escDis1 => True
    | .idle | .initCfg | .initSs | .initEn | .drain | .timedout | .escEn1 | .escDrain | .escClr | .escDis2 | .escEn2 =>
        s.inflight = false

end Sys2Proof.Machine
end

