-- ==== Sys2Proof/Certificates/Slice0/Obligations.lean ====
section
/-! DEFINITION. The statements for the provers. Request words, command words and result words are written as the
spec's numbers (R82, R85, R88), not by the model's own encoder. -/

open Sys2Proof Sys2Proof.Machine

/-! ## Encoding and decoding -/

/-- R80 to R91: a word decodes to an instruction exactly when it is that instruction's word, so every operand
survives and no two words share an instruction. -/
def Obligations.DecodeInvertsEncode : Prop :=
  ∀ (t : TableWord) (i : Instr), decode t = .ok i ↔ encode i = t

/-- R82, R85, R88, R89, R95: a word that decodes belongs to exactly one row of its format by the match and mask
columns, the row of the instruction it decodes to; a word that does not decode belongs to none. -/
def Obligations.DecoderFollowsTheOpcodeTable : Prop :=
  ∀ t : TableWord,
    (∀ i, decode t = .ok i → rowsOf t = [i.mnemonic]) ∧ (∀ e, decode t = .error e → rowsOf t = [])

/-- R90: the reserved words of each format, rejected by the name of their clause (a) to (d). -/
def Obligations.ReservedWordsAreRejectedByName : Prop :=
  (∀ w : BitVec 10, w < 0x100#10 → decode (.command w) = .error .reservedCommand) ∧
  (∀ w : BitVec 10, w.extractLsb' 8 2 ≠ 2#2 → w.extractLsb' 0 8 ≠ 0#8 →
    decode (.result w) = .error .unproducedResult) ∧
  (∀ w : BitVec 12, 5#3 ≤ w.extractLsb' 8 3 → decode (.request w) = .error .unissuedRequest) ∧
  (∀ w : BitVec 12, w < 0x800#12 → 2#3 ≤ w.extractLsb' 8 3 → decode (.request w) = .error .unissuedRequest) ∧
  (∀ w : BitVec 12, w < 0x800#12 → w.extractLsb' 0 8 ≠ 0#8 → decode (.request w) = .error .unissuedRequest) ∧
  (∀ w : BitVec 12, 0x900#12 ≤ w → w < 0xA00#12 → w ≠ 0x900#12 → decode (.request w) = .error .unissuedRequest) ∧
  (∀ w : BitVec 12, 0xA01#12 < w → w < 0xB00#12 → decode (.request w) = .error .unissuedRequest) ∧
  (∀ w : BitVec 12, 0xB00#12 < w → w < 0xC00#12 → decode (.request w) = .error .unissuedRequest) ∧
  (∀ w : BitVec 12, 0xC01#12 < w → decode (.request w) = .error .unissuedRequest) ∧
  (∀ w : BitVec 5, 17#5 ≤ w → decode (.phase w) = .error .reservedPhase)

/-- Sanity: words written out from R82, R85, R88 and R89 (95_test_vectors.md E1 to E13). -/
def Obligations.SpecWordsDecode : Prop :=
  decode (.command 0x100#10) = .ok (.init 0x00#8) ∧ decode (.command 0x242#10) = .ok (.send 0x42#8) ∧
  decode (.command 0x3A7#10) = .ok (.receive 0xA7#8) ∧ decode (.result 0x2FF#10) = .ok (.resByte 0xFF#8) ∧
  decode (.result 0x300#10) = .ok .resTimeout ∧ decode (.request 0x842#12) = .ok (.wrData 0x42#8) ∧
  decode (.request 0xA01#12) = .ok (.wrEn true) ∧ decode (.request 0xC00#12) = .ok (.setSs false) ∧
  decode (.phase 7#5) = .ok .polling ∧ decode (.phase 13#5) = .ok .escEn2

/-- R181, R187: a command word selects a host command and nothing else, and no internal operation has a command
word. -/
def Obligations.CommandWordsReachOnlyTheCallerLevel : Prop :=
  (∀ w i, decode (.command w) = .ok i → i.callerLevel = true) ∧
  (∀ i : Instr, i.callerLevel = true ↔ ∃ w, encode i = .command w)

/-! ## The step -/

/-- A step decodes the word `fetchWord` names and runs the instruction on the state with that word taken; the
peripheral's move follows. -/
def Obligations.StepRunsTheDecodedInstruction : Prop :=
  ∀ (s : State) (i : Instr), s.powerOn = false → decode (fetchWord s) = .ok i →
    step s = settle (exec i (consumeWord s))

/-- R21, R31, R100, R128: what the next word is. With a command waiting in IDLE it is that command, which leaves the
caller's program; otherwise it is the micro-operation of `phase`; IDLE with no command changes nothing of SPIM, and
only the peripheral moves. -/
def Obligations.StepFollowsPhaseOrIssuesTheNextCommand : Prop :=
  (∀ (s : State) (c : BitVec 10) (cs : List (BitVec 10)) (i : Instr),
    s.powerOn = false → s.port = none → s.phase = .idle → s.program = c :: cs → decode (.command c) = .ok i →
      step s = settle (exec i { s with program := cs })) ∧
  (∀ s : State, s.powerOn = false → s.port = none → s.phase ≠ .idle → step s = settle (exec (microOp s.phase) s)) ∧
  (∀ s : State, s.powerOn = false → s.port = none → s.phase = .idle → s.program = [] →
    exec .idle s = .next s ∧ step s = .next (peripheralMove s))

/-- The model's placing of a word (log 12): the word placed is the very next one fetched. -/
def Obligations.PlacedWordIsFetchedNext : Prop :=
  ∀ (s : State) (nbits w : Nat) (t : TableWord) (i : Instr), tableWordOf nbits w = some t → decode t = .ok i →
    (s.withFetchWord nbits w).powerOn = false ∧ fetchWord (s.withFetchWord nbits w) = t ∧
    decodeTableWord nbits w = some i

/-- R90 (a), R101: a host word with `op = 00` is refused, presented at any time or met in the caller's program. That
it is refused so while busy too is the model's order (log 17). -/
def Obligations.ReservedCommandIsRefused : Prop :=
  ∀ (s : State) (c : BitVec 10), c < 0x100#10 → s.powerOn = false →
    (s.port = some (.command c) ∨ (s.port = none ∧ s.phase = .idle ∧ ∃ cs, s.program = c :: cs)) →
      step s = .refused .reservedCommand

/-- R101: every command is refused while busy, by `exec` and as a word presented to `step`; a transfer before INIT
and a second INIT are refused in IDLE. `busy` before the others is the model's order (log 17). -/
def Obligations.CommandsOutOfPlaceAreRefused : Prop :=
  (∀ (s : State) (d : Byte), s.phase ≠ .idle →
    exec (.init d) s = .refused .busy ∧ exec (.send d) s = .refused .busy ∧
    exec (.receive d) s = .refused .busy) ∧
  (∀ (s : State) (c : BitVec 10), s.phase ≠ .idle → s.powerOn = false → s.port = some (.command c) →
    0x100#10 ≤ c → step s = .refused .busy) ∧
  (∀ (s : State) (d : Byte), s.phase = .idle → s.initDone = false →
    exec (.send d) s = .refused .notInitialised ∧ exec (.receive d) s = .refused .notInitialised) ∧
  (∀ (s : State) (d : Byte), s.phase = .idle → s.initDone = true → exec (.init d) s = .refused .initRepeated)

/-- R200: the power-on event in IDLE before any command gives the initial state, makes no access and leaves every
location alone; while busy it is refused. After a command the model refuses it too (log 16). -/
def Obligations.PowerOnResetsOnlyBeforeTheFirstCommand : Prop :=
  (∀ s : State, s.powerOn = true → s.phase = .idle → s.trace.any Event.isAccept = false →
    ∃ t, powerOnReset s = .next t ∧ step s = .next (peripheralMove t) ∧ t.phase = .idle ∧ t.result = .none ∧
      t.initDone = false ∧ t.callWritten = false ∧ t.trace = [] ∧ t.powerOn = false ∧
      ∀ a, Memory.read t.mem a = Memory.read s.mem a) ∧
  (∀ s : State, s.powerOn = true → s.phase ≠ .idle → step s = .refused .resetWhileBusy) ∧
  (∀ s : State, s.powerOn = true → s.phase = .idle → s.trace.any Event.isAccept = true →
    step s = .refused .resetAfterCommand)

/-- R37, R200: what the spec gives for reset. -/
def Obligations.ResetIsTheSpecsReset : Prop :=
  State.reset.phase = .idle ∧ State.reset.busy = false ∧ State.reset.result = .none ∧
  State.reset.result.word = 0x000#10 ∧ State.reset.initDone = false ∧ State.reset.callWritten = false ∧
  State.reset.trace = [] ∧ State.reset.params.windowMax = 255 ∧ State.reset.params.escalationMax = 2 ∧
  State.reset.params.dummyFill = 0xFF#8

/-! ## Host commands -/

/-- R102: the acceptance of INIT; nothing else changes. -/
def Obligations.InitIsAccepted : Prop :=
  ∀ (s : State) (d : Byte), s.phase = .idle → s.initDone = false →
    exec (.init d) s =
      .next { s with trace := s.trace ++ [.accept (0x100#10 + d.setWidth 10)], result := .none, phase := .initCfg }

/-- R106: the acceptance of SEND b; nothing else of the machine changes (`callWritten` and `polls` are the model's
own, logs 1 and 5). -/
def Obligations.SendIsAccepted : Prop :=
  ∀ (s : State) (b : Byte), s.phase = .idle → s.initDone = true →
    exec (.send b) s =
      .next { s with
        trace := s.trace ++ [.accept (0x200#10 + b.setWidth 10)], result := .none, variant := .send, tx := b,
        esc := 0, window := s.params.windowMax, phase := .drain, callWritten := true, polls := 0 }

/-- R107: the acceptance of RECEIVE; nothing else of the machine changes (`callWritten` and `polls` are the model's
own, logs 1 and 5). -/
def Obligations.ReceiveIsAccepted : Prop :=
  ∀ (s : State) (d : Byte), s.phase = .idle → s.initDone = true →
    exec (.receive d) s =
      .next { s with
        trace := s.trace ++ [.accept (0x300#10 + d.setWidth 10)], result := .none, variant := .receive,
        tx := s.params.dummyFill, esc := 0, window := s.params.windowMax, phase := .drain, callWritten := true,
        polls := 0 }

/-- R102, R204: INIT from any uninitialised IDLE state runs in four steps, whatever the peripheral does, to the
launch state, with the trace of R102's example. -/
def Obligations.InitRunsToTheLaunchState : Prop :=
  ∀ (s : State) (d : Byte) (rest : List (BitVec 10)),
    s.phase = .idle → s.initDone = false → s.port = none → s.powerOn = false →
    s.program = (0x100#10 + d.setWidth 10) :: rest →
      ∃ t, core.run 4 s = .next t ∧ t.phase = .idle ∧ t.initDone = true ∧ t.result = .none ∧ t.en = true ∧
        t.ssN = true ∧ t.loc .cfg = s.params.cfgInit ∧ t.program = rest ∧
        t.trace = s.trace ++ [.accept (0x100#10 + d.setWidth 10), .access 0xB00#12 none, .access 0xC01#12 none,
          .access 0xA01#12 none]

/-! ## Result words -/

/-- R84, R85: the words, and the timeout "distinguishable from every valid received byte value". As instructions
(the model's reading, log 14): the word is written, RESULT is emitted for all but NONE, nothing else changes. -/
def Obligations.ResultWordsAreWritten : Prop :=
  (∀ s : State, exec .resNone s = .next { s with result := .none }) ∧
  (∀ s : State, exec .resAck s = .next { s with result := .ack, trace := s.trace ++ [.result .ack] }) ∧
  (∀ (s : State) (v : Byte),
    exec (.resByte v) s = .next { s with result := .byte v, trace := s.trace ++ [.result (.byte v)] }) ∧
  (∀ s : State, exec .resTimeout s = .next { s with result := .timeout, trace := s.trace ++ [.result .timeout] }) ∧
  Result.none.word = 0x000#10 ∧ Result.ack.word = 0x100#10 ∧ Result.timeout.word = 0x300#10 ∧
  (∀ v : Byte, (Result.byte v).word = 0x200#10 + v.setWidth 10 ∧ (Result.byte v).word ≠ Result.timeout.word)

/-! ## Register-interface accesses

Each as a single access, which leaves SPIM's registers alone (the model's reading, log 13). -/

/-- R56: under `P_contract` RD_DATA answers the location's byte (the last one received, R63), and it clears STAT.DONE;
only the STAT byte can change. R67 leaves the bare oracle free of R56: that the bare environment answers the byte its
DATA location holds, which is drawn anew after every step, is the model's (log 25). -/
def Obligations.ReadingDataClearsDone : Prop :=
  ∀ s : State,
    ∃ t, exec .rdData s = .next t ∧ t.trace = s.trace ++ [.access 0x000#12 (some (s.answer .data))] ∧
      (s.env = .bare ∨ s.env.isContract = true → s.answer .data = s.loc .data) ∧
      t.done = false ∧ KeepsBytesExcept [.stat] s t ∧ t.phase = s.phase ∧ KeepsCall s t ∧ KeepsCounters s t ∧
      KeepsExchange s t

/-- R57: WR_DATA b starts an exchange of b; it changes no byte of the space, so neither DONE nor what a read of DATA
answers. With an exchange in flight or the peripheral disabled R57 does not state what the write does: that `inflight`
and `out` are those of the newest byte there too is the model's (log 7). -/
def Obligations.WritingDataStartsAnExchange : Prop :=
  ∀ (s : State) (b : Byte),
    ∃ t, exec (.wrData b) s = .next t ∧ t.trace = s.trace ++ [.access (0x800#12 + b.setWidth 12) none] ∧
      t.inflight = true ∧ t.out = b ∧ KeepsBytesExcept [] s t ∧ t.phase = s.phase ∧ KeepsCall s t ∧
      KeepsCounters s t

/-- R58: RD_STAT has no side effect on any byte of the space. -/
def Obligations.ReadingStatusHasNoSideEffect : Prop :=
  ∀ s : State,
    ∃ t, exec .rdStat s = .next t ∧ t.trace = s.trace ++ [.access 0x100#12 (some (s.answer .stat))] ∧
      KeepsBytesExcept [] s t ∧ t.phase = s.phase ∧ KeepsCall s t ∧ KeepsCounters s t ∧ KeepsExchange s t

/-- R59: CLR_STAT clears STAT.DONE; only the STAT byte can change. -/
def Obligations.ClearingStatusClearsDone : Prop :=
  ∀ s : State,
    ∃ t, exec .clrStat s = .next t ∧ t.trace = s.trace ++ [.access 0x900#12 none] ∧ t.done = false ∧
      KeepsBytesExcept [.stat] s t ∧ t.phase = s.phase ∧ KeepsCall s t ∧ KeepsCounters s t ∧ KeepsExchange s t

/-- R60: WR_EN e writes CTRL.EN, and a disable abandons the exchange in flight. CFG and SSPORT survive. DATA and
STAT are open (U3): the statement says nothing of them in the bare environment, and that the others keep them
(R68, R69, log 6). That bits 7 to 1 of CTRL are those of the byte written is the model's (log 18). -/
def Obligations.WritingEnableSwitchesThePeripheral : Prop :=
  ∀ (s : State) (e : Bool),
    ∃ t, exec (.wrEn e) s = .next t ∧
      t.trace = s.trace ++ [.access (0xA00#12 + (BitVec.ofBool e).setWidth 12) none] ∧
      t.loc .ctrl = (BitVec.ofBool e).setWidth 8 ∧ t.en = e ∧ t.inflight = (s.inflight && e) ∧ t.out = s.out ∧
      KeepsBytesExcept [.ctrl, .data, .stat] s t ∧ (s.env ≠ .bare → KeepsBytesExcept [.ctrl] s t) ∧
      t.phase = s.phase ∧ KeepsCall s t ∧ KeepsCounters s t

/-- R61, R62: WR_CFG stores CFG_INIT in CFG, SET_SS l the level l in SSPORT; every other byte stays. That bits 7 to 1
of SSPORT are those of the byte written is the model's (log 18). -/
def Obligations.WritingConfigurationAndSelectLine : Prop :=
  (∀ s : State,
    ∃ t, exec .wrCfg s = .next t ∧ t.trace = s.trace ++ [.access 0xB00#12 none] ∧
      t.loc .cfg = s.params.cfgInit ∧ KeepsBytesExcept [.cfg] s t ∧ t.phase = s.phase ∧ KeepsCall s t ∧
      KeepsCounters s t ∧ KeepsExchange s t) ∧
  (∀ (s : State) (l : Bool),
    ∃ t, exec (.setSs l) s = .next t ∧
      t.trace = s.trace ++ [.access (0xC00#12 + (BitVec.ofBool l).setWidth 12) none] ∧
      t.loc .ssport = (BitVec.ofBool l).setWidth 8 ∧ t.ssN = l ∧ KeepsBytesExcept [.ssport] s t ∧
      t.phase = s.phase ∧ KeepsCall s t ∧ KeepsCounters s t ∧ KeepsExchange s t)

/-! ## The micro-operations of INIT -/

/-- R103: INIT_CFG. -/
def Obligations.InitCfgWritesTheConfiguration : Prop :=
  ∀ s : State,
    ∃ t, exec .initCfg s = .next t ∧ t.phase = .initSs ∧ t.trace = s.trace ++ [.access 0xB00#12 none] ∧
      t.loc .cfg = s.params.cfgInit ∧ KeepsBytesExcept [.cfg] s t ∧ KeepsCall s t ∧ KeepsCounters s t ∧
      KeepsExchange s t

/-- R104: INIT_SS. The line is high by the rule; bits 7 to 1 of SSPORT are the model's (log 18). -/
def Obligations.InitSsDeassertsTheLine : Prop :=
  ∀ s : State,
    ∃ t, exec .initSs s = .next t ∧ t.phase = .initEn ∧ t.trace = s.trace ++ [.access 0xC01#12 none] ∧
      t.loc .ssport = 0x01#8 ∧ t.ssN = true ∧ KeepsBytesExcept [.ssport] s t ∧ KeepsCall s t ∧
      KeepsCounters s t ∧ KeepsExchange s t

/-- R105: INIT_EN; `result` is left alone and no RESULT event is emitted. DATA and STAT are open across the enable
(U3); that the reference environments keep them is log 6, and bits 7 to 1 of CTRL are log 18. -/
def Obligations.InitEnEnablesAndFinishes : Prop :=
  ∀ s : State,
    ∃ t, exec .initEn s = .next t ∧ t.phase = .idle ∧ t.busy = false ∧ t.initDone = true ∧
      t.trace = s.trace ++ [.access 0xA01#12 none] ∧ t.loc .ctrl = 0x01#8 ∧ t.en = true ∧
      KeepsBytesExcept [.ctrl, .data, .stat] s t ∧ (s.env ≠ .bare → KeepsBytesExcept [.ctrl] s t) ∧
      KeepsCall { s with initDone := true } t ∧ KeepsCounters s t ∧ KeepsExchange s t

/-! ## The Transfer Engine -/

/-- R121: DRAIN drops the value it reads; the read clears STAT.DONE (R56). -/
def Obligations.DrainDropsTheStaleByte : Prop :=
  ∀ s : State,
    ∃ t, exec .drain s = .next t ∧ t.phase = .select ∧
      t.trace = s.trace ++ [.access 0x000#12 (some (s.answer .data))] ∧ t.done = false ∧
      KeepsBytesExcept [.stat] s t ∧ KeepsCall s t ∧ KeepsCounters s t ∧ KeepsExchange s t

/-- R122 and R125: SELECT drives the line low, SUCCEEDED drives it high; nothing else moves but `phase`. Bits 7 to 1 of
SSPORT are the model's (log 18). -/
def Obligations.SelectAndSucceededDriveTheLine : Prop :=
  (∀ s : State,
    ∃ t, exec .select s = .next t ∧ t.phase = .load ∧ t.trace = s.trace ++ [.access 0xC00#12 none] ∧
      t.loc .ssport = 0x00#8 ∧ t.ssN = false ∧ KeepsBytesExcept [.ssport] s t ∧ KeepsCall s t ∧
      KeepsCounters s t ∧ KeepsExchange s t) ∧
  (∀ s : State,
    ∃ t, exec .succeeded s = .next t ∧ t.phase = .collect ∧ t.trace = s.trace ++ [.access 0xC01#12 none] ∧
      t.loc .ssport = 0x01#8 ∧ t.ssN = true ∧ KeepsBytesExcept [.ssport] s t ∧ KeepsCall s t ∧
      KeepsCounters s t ∧ KeepsExchange s t)

/-- R123: LOAD writes `tx` to DATA, which starts the exchange; no byte of the space changes. With an exchange in flight
or the peripheral disabled R57 does not state what the write does: `inflight` and `out` there are the model's (log 7).
With `tx` unwritten LOAD faults (UnwrittenCallRegistersFault). -/
def Obligations.LoadStartsTheExchangeOfTx : Prop :=
  ∀ s : State, s.callWritten = true →
    ∃ t, exec .load s = .next t ∧ t.phase = .polling ∧
      t.trace = s.trace ++ [.access (0x800#12 + s.tx.setWidth 12) none] ∧ t.inflight = true ∧ t.out = s.tx ∧
      KeepsBytesExcept [] s t ∧ KeepsCall s t ∧ KeepsCounters s t

/-- R124, R131, R173, R176: one poll. The flag is tested first; a clear flag decrements `window`, and its new value
0 escalates or raises Timeout by `esc`; `esc` and every byte of the space are unchanged. The counters are read, and so
must have been written and `window` be at least 1, only when the flag is clear. -/
def Obligations.PollingFollowsItsRule : Prop :=
  ∀ s : State, (s.answer .stat).getLsbD 0 = true ∨ (s.callWritten = true ∧ 1 ≤ s.window) →
    ∃ t, exec .polling s = .next t ∧ t.trace = s.trace ++ [.access 0x100#12 (some (s.answer .stat))] ∧
      KeepsBytesExcept [] s t ∧ KeepsCall s t ∧ KeepsExchange s t ∧ t.esc = s.esc ∧
      ((s.answer .stat).getLsbD 0 = true → t.phase = .succeeded ∧ t.window = s.window) ∧
      ((s.answer .stat).getLsbD 0 = false →
        t.window = s.window - 1 ∧
        (2 ≤ s.window → t.phase = .polling) ∧
        (s.window = 1 → s.esc < s.params.escalationMax → t.phase = .escDis1) ∧
        (s.window = 1 → s.params.escalationMax ≤ s.esc → t.phase = .timedout))

/-- The model's choice where R131 and R132 give no value (log 10): POLLING with `window = 0` and ESC_EN2 with `esc`
at its maximum still run, and the open counter gets a value of its range. Everything else is as in the statements of
the two: the frames of POLLING, and of ESC_EN2, whose whole CTRL byte rests on log 18 and whose DATA and STAT are open
(U3) and kept by the reference environments (log 6). -/
def Obligations.CountersStayInRangeWhereTheSpecIsSilent : Prop :=
  (∀ s : State, s.callWritten = true → s.window = 0 →
    ∃ t, exec .polling s = .next t ∧ t.window ≤ s.params.windowMax ∧ t.esc = s.esc ∧ KeepsCall s t ∧
      KeepsExchange s t ∧ KeepsBytesExcept [] s t ∧ t.trace = s.trace ++ [.access 0x100#12 (some (s.answer .stat))] ∧
      ((s.answer .stat).getLsbD 0 = true → t.phase = .succeeded ∧ t.window = 0) ∧
      ((s.answer .stat).getLsbD 0 = false → 1 ≤ t.window → t.phase = .polling) ∧
      ((s.answer .stat).getLsbD 0 = false → t.window = 0 →
        t.phase = if s.esc < s.params.escalationMax then .escDis1 else .timedout)) ∧
  (∀ s : State, s.callWritten = true → s.params.escalationMax ≤ s.esc →
    ∃ t, exec .escEn2 s = .next t ∧ t.phase = .polling ∧ t.esc ≤ s.params.escalationMax ∧
      t.window = s.params.windowMax ∧ t.loc .ctrl = 0x01#8 ∧ t.en = true ∧ KeepsExchange s t ∧
      KeepsBytesExcept [.ctrl, .data, .stat] s t ∧ (s.env ≠ .bare → KeepsBytesExcept [.ctrl] s t) ∧ KeepsCall s t ∧
      t.trace = s.trace ++ [.access 0xA01#12 none])

/-- R171, R173, R176: the exact condition of Timeout, and that no instruction but POLLING raises it. -/
def Obligations.TimeoutIsRaisedExactlyWhenTheBudgetIsSpent : Prop :=
  (∀ s : State, s.callWritten = true → 1 ≤ s.window → s.esc ≤ s.params.escalationMax →
    ((∃ t, exec .polling s = .next t ∧ t.phase = .timedout) ↔
      ((s.answer .stat).getLsbD 0 = false ∧ s.window = 1 ∧ s.esc = s.params.escalationMax))) ∧
  (∀ (i : Instr) (s t : State), exec i s = .next t → t.phase = .timedout → s.phase ≠ .timedout → i = .polling)

/-- R126: COLLECT reads DATA once for either variant; the result is BYTE of that answer for receive and ACK for
send, and RESULT is emitted in the same step (R108). -/
def Obligations.CollectDeliversTheResult : Prop :=
  ∀ s : State, s.callWritten = true →
    ∃ t, exec .collect s = .next t ∧ t.phase = .idle ∧
      t.trace = s.trace ++ [.access 0x000#12 (some (s.answer .data)), .result t.result] ∧
      (s.variant = .receive → t.result = .byte (s.answer .data)) ∧ (s.variant = .send → t.result = .ack) ∧
      t.done = false ∧ KeepsBytesExcept [.stat] s t ∧ KeepsCall { s with result := t.result } t ∧
      KeepsCounters s t ∧ KeepsExchange s t

/-- R127, R173, R177: TIMEDOUT deasserts the line on both variants, posts TIMEOUT and returns to IDLE; no other
access, nothing restored. Bits 7 to 1 of SSPORT are the model's (log 18). -/
def Obligations.TimedoutDeassertsAndReports : Prop :=
  ∀ s : State,
    ∃ t, exec .timedout s = .next t ∧ t.phase = .idle ∧ t.result = .timeout ∧ t.result.word = 0x300#10 ∧
      t.trace = s.trace ++ [.access 0xC01#12 none, .result .timeout] ∧ t.loc .ssport = 0x01#8 ∧ t.ssN = true ∧
      KeepsBytesExcept [.ssport] s t ∧ KeepsCall { s with result := .timeout } t ∧ KeepsCounters s t ∧
      KeepsExchange s t

/-- R37: "a model must treat a read before the first write as a fault". POLLING
reads none of them when the flag is set (R124). That the four registers are marked together is the model's choice
(log 1). -/
def Obligations.UnwrittenCallRegistersFault : Prop :=
  ∀ (s : State) (i : Instr), s.callWritten = false →
    i ∈ [Instr.load, .escDis1, .escEn2, .collect] ∨ (i = .polling ∧ (s.answer .stat).getLsbD 0 = false) →
      exec i s = .fault .callRegisterUnwritten

/-! ## The Reset Escalator -/

/-- R151: ESC_DIS1, with its marker. DATA and STAT are open across the disable (U3); that the
reference environments keep them is log 6, and bits 7 to 1 of CTRL are log 18. With `esc` unwritten ESC_DIS1 faults
(UnwrittenCallRegistersFault). -/
def Obligations.EscDis1MarksAndDisables : Prop :=
  ∀ s : State, s.callWritten = true →
    ∃ t, exec .escDis1 s = .next t ∧ t.phase = .escEn1 ∧
      t.trace = s.trace ++ [.resetBegin (s.esc + 1), .access 0xA00#12 none] ∧ t.loc .ctrl = 0x00#8 ∧
      t.en = false ∧ t.inflight = false ∧ t.out = s.out ∧ KeepsBytesExcept [.ctrl, .data, .stat] s t ∧
      (s.env ≠ .bare → KeepsBytesExcept [.ctrl] s t) ∧ KeepsCall s t ∧ KeepsCounters s t

/-- R152 and R155: ESC_EN1 enables, ESC_DIS2 disables. DATA and STAT are open across both (U3);
that the reference environments keep them is log 6, and bits 7 to 1 of CTRL are log 18. -/
def Obligations.EscEn1AndEscDis2SwitchThePeripheral : Prop :=
  (∀ s : State,
    ∃ t, exec .escEn1 s = .next t ∧ t.phase = .escDrain ∧ t.trace = s.trace ++ [.access 0xA01#12 none] ∧
      t.loc .ctrl = 0x01#8 ∧ t.en = true ∧ KeepsExchange s t ∧ KeepsBytesExcept [.ctrl, .data, .stat] s t ∧
      (s.env ≠ .bare → KeepsBytesExcept [.ctrl] s t) ∧ KeepsCall s t ∧ KeepsCounters s t) ∧
  (∀ s : State,
    ∃ t, exec .escDis2 s = .next t ∧ t.phase = .escEn2 ∧ t.trace = s.trace ++ [.access 0xA00#12 none] ∧
      t.loc .ctrl = 0x00#8 ∧ t.en = false ∧ t.inflight = false ∧ t.out = s.out ∧
      KeepsBytesExcept [.ctrl, .data, .stat] s t ∧ (s.env ≠ .bare → KeepsBytesExcept [.ctrl] s t) ∧
      KeepsCall s t ∧ KeepsCounters s t)

/-- R153 and R154: ESC_DRAIN drops the byte it reads, ESC_CLR clears the flag; both leave STAT.DONE clear and can
change no byte but STAT. -/
def Obligations.EscDrainAndEscClrClearTheFlag : Prop :=
  (∀ s : State,
    ∃ t, exec .escDrain s = .next t ∧ t.phase = .escClr ∧
      t.trace = s.trace ++ [.access 0x000#12 (some (s.answer .data))] ∧ t.done = false ∧
      KeepsBytesExcept [.stat] s t ∧ KeepsCall s t ∧ KeepsCounters s t ∧ KeepsExchange s t) ∧
  (∀ s : State,
    ∃ t, exec .escClr s = .next t ∧ t.phase = .escDis2 ∧ t.trace = s.trace ++ [.access 0x900#12 none] ∧
      t.done = false ∧ KeepsBytesExcept [.stat] s t ∧ KeepsCall s t ∧ KeepsCounters s t ∧ KeepsExchange s t)

/-- R156, R132: ESC_EN2 enables, increments `esc` and reloads `window` in the same step. DATA and STAT are open
across the enable (U3); that the reference environments keep them is log 6, and bits 7 to 1 of CTRL are log 18. `esc`
at its maximum is CountersStayInRangeWhereTheSpecIsSilent. -/
def Obligations.EscEn2ReloadsTheRetryState : Prop :=
  ∀ s : State, s.callWritten = true → s.esc < s.params.escalationMax →
    ∃ t, exec .escEn2 s = .next t ∧ t.phase = .polling ∧ t.trace = s.trace ++ [.access 0xA01#12 none] ∧
      t.esc = s.esc + 1 ∧ t.window = s.params.windowMax ∧ t.loc .ctrl = 0x01#8 ∧ t.en = true ∧
      KeepsExchange s t ∧ KeepsBytesExcept [.ctrl, .data, .stat] s t ∧
      (s.env ≠ .bare → KeepsBytesExcept [.ctrl] s t) ∧ KeepsCall s t

/-- R150, R159, R160, R161: one run of the Reset Escalator, whatever the peripheral does between its steps: six
steps, the fixed access sequence, back to POLLING with the counters advanced, the line still low, the peripheral
enabled, no DATA write. -/
def Obligations.ResetEscalatorRunsItsFixedSequence : Prop :=
  ∀ s : State, s.Inv → s.phase = .escDis1 → s.port = none → s.powerOn = false →
    ∃ (t : State) (v : Byte), core.run 6 s = .next t ∧ t.phase = .polling ∧ t.esc = s.esc + 1 ∧
      t.window = s.params.windowMax ∧ t.ssN = false ∧ t.en = true ∧ t.inflight = false ∧
      t.trace = s.trace ++ [.resetBegin (s.esc + 1), .access 0xA00#12 none, .access 0xA01#12 none,
        .access 0x000#12 (some v), .access 0x900#12 none, .access 0xA00#12 none, .access 0xA01#12 none]

/-! ## The peripheral -/

/-- R63, R67, R68, R69, and U4 (log 7): `complete` where it is enabled and where it is not; the answers of
`P_contract` and of the scripted environments; a DATA write that no rule covers ends the contract. -/
def Obligations.EnvironmentsAnswerAsSpecified : Prop :=
  (∀ (s : State) (v : Byte), s.inflight = true → s.en = true →
    (complete v s).loc .data = v ∧ (complete v s).done = true ∧ (complete v s).inflight = false ∧
    KeepsBytesExcept [.data, .stat] s (complete v s)) ∧
  (∀ (s : State) (v : Byte), s.inflight = false ∨ s.en = false → complete v s = s) ∧
  (∀ s : State, s.env.isContract = true →
    s.answer .data = s.loc .data ∧ s.answer .stat = (BitVec.ofBool s.done).setWidth 8) ∧
  (∀ (s : State) (d : Byte), s.env = .alwaysReady d → s.answer .data = d ∧ s.answer .stat = 0x01#8) ∧
  (∀ s : State, s.env = .neverReady → s.answer .stat = 0x00#8) ∧
  (∀ (s : State) (n : Nat) (d : Byte), s.env = .readyAtPoll n d →
    s.answer .data = d ∧ s.answer .stat = if s.polls + 1 < n then 0x00#8 else 0x01#8) ∧
  (∀ (s t : State) (b : Byte), s.env.isContract = true → exec (.wrData b) s = .next t →
    (s.inflight = false ∧ s.en = true → t.env = s.env) ∧ (s.inflight = true ∨ s.en = false → t.env = .bare))

/-! ## Rules of the whole machine -/

/-- R74: each micro-operation makes exactly the access the table gives its phase, and IDLE makes none; the list of
accesses grows by that one. The five that read call registers are stated where those are written (R37). -/
def Obligations.EachPhaseMakesItsOneAccess : Prop :=
  ∀ (p : Phase) (s : State), s.callWritten = true →
    ∃ t, exec (microOp p) s = .next t ∧
      match requestOfPhase s p with
      | none => t.trace = s.trace
      | some r => ∃ v, accessesOf t.trace = accessesOf s.trace ++ [(r, v)] ∧ (v.isSome = true ↔ r < 0x800#12)

/-- R41, R120: a step takes `phase` to a successor the table gives it; IDLE stays IDLE until a command is accepted.
Premise (R206): no bench word is presented. -/
def Obligations.PhaseMovesAsTheTableSays : Prop :=
  ∀ s t : State, (∀ w, s.port = some w → ∃ c, w = .command c) → step s = .next t →
    t.phase ∈ successors s.phase ∨ (s.phase = .idle ∧ t.phase = .idle)

/-- R22 to R25: no micro-operation writes `variant` or `tx`; `window` is written by POLLING and ESC_EN2 only, `esc`
by ESC_EN2 only, `result` by COLLECT and TIMEDOUT only, `init_done` by INIT_EN only, the parameters by nothing. -/
def Obligations.RegistersAreWrittenOnlyWhereTheRulesSay : Prop :=
  ∀ (p : Phase) (s t : State), exec (microOp p) s = .next t →
    t.variant = s.variant ∧ t.tx = s.tx ∧ t.params = s.params ∧ t.callWritten = s.callWritten ∧
    (p ≠ .polling → p ≠ .escEn2 → t.window = s.window) ∧ (p ≠ .escEn2 → t.esc = s.esc) ∧
    (p ≠ .collect → p ≠ .timedout → t.result = s.result) ∧ (p ≠ .initEn → t.initDone = s.initDone)

/-- R108, R26: a posted result stands, whatever the peripheral does, until the next command is accepted. -/
def Obligations.ResultStandsUntilTheNextCommand : Prop :=
  ∀ s t : State, s.phase = .idle → s.port = none → s.powerOn = false → s.program = [] → step s = .next t →
    t.result = s.result ∧ t.phase = .idle ∧ t.trace = s.trace

/-- R27: `init_done` is set by INIT_EN and never cleared except by power-on reset. -/
def Obligations.InitDoneIsNeverClearedByAStep : Prop :=
  ∀ s t : State, s.powerOn = false → step s = .next t →
    (s.initDone = true → t.initDone = true) ∧
    (s.initDone = false → t.initDone = true → fetchWord s = .phase 3#5)

/-- R62: after INIT_SS no step changes the slave-select line but those of INIT_SS, SELECT, SUCCEEDED and TIMEDOUT,
which are the ones that make a SET_SS; neither does the peripheral. Premise (R206): no bench word. -/
def Obligations.OnlySetSsMovesTheLine : Prop :=
  ∀ s t : State, (∀ w, s.port = some w → ∃ c, w = .command c) → s.powerOn = false → step s = .next t →
    s.initDone = true ∨ s.phase = .initEn →
    s.phase ≠ .initSs → s.phase ≠ .select → s.phase ≠ .succeeded → s.phase ≠ .timedout →
      t.loc .ssport = s.loc .ssport

/-- R205, R74: no step but INIT_CFG's changes CFG, and the peripheral does not. Premise (R206): no bench word. -/
def Obligations.OnlyInitCfgWritesTheConfiguration : Prop :=
  ∀ s t : State, (∀ w, s.port = some w → ∃ c, w = .command c) → step s = .next t → s.phase ≠ .initCfg →
    t.loc .cfg = s.loc .cfg

/-! ## Invariants -/

/-- The invariants hold at reset (R35, R36, R37; the values of the call registers and of the exchange there are the
model's, logs 1 and 20). -/
def Obligations.InvariantsHoldAtReset : Prop :=
  State.reset.Inv ∧ CallOk State.reset ∧ ShapeOk State.reset ∧ DeliveryOk State.reset

/-- R35, R36, R186, R204 and the canonical form of memory: every step keeps the invariant. -/
def Obligations.StepKeepsTheInvariant : Prop :=
  ∀ s t : State, s.Inv → step s = .next t → t.Inv

/-- R35, R36, R123, R130, R133, R135, R136, R158, R161: every step keeps what the trace of the current call shows:
one fall and one rise of the line, one DATA write, exactly one RESULT as its last event, `esc` resets, the poll and
access counts, with exactly `(ESCALATION_MAX + 1) * WINDOW_MAX` polls and `ESCALATION_MAX` resets on a timeout. -/
def Obligations.StepKeepsTheCallTrace : Prop :=
  ∀ s t : State, s.Inv → CallOk s → step s = .next t → CallOk t

/-- R130, R135, R161: the request words of a transfer, in order, are exactly RD_DATA, SET_SS 0, WR_DATA tx, then
whole windows of polls each followed by the six accesses of a reset, then the last window's polls, then SET_SS 1 and,
on success only, RD_DATA; every step keeps this of the part already made. -/
def Obligations.StepKeepsTheShapeOfATransfer : Prop :=
  ∀ s t : State, s.Inv → ShapeOk s → step s = .next t → ShapeOk t

/-- R174: from a state that meets the invariant no step faults, and while a call runs, with nothing presented, the
step answers a next state. -/
def Obligations.RunningCallsNeverStop : Prop :=
  ∀ s : State, s.Inv →
    (∀ f, step s ≠ .fault f) ∧
    (s.phase ≠ .idle → s.port = none → s.powerOn = false → ∃ t, step s = .next t)

/-- R7: the counters fit the widths derived for their registers. -/
def Obligations.CountersFitTheirWidths : Prop :=
  ∀ s : State, s.Inv → s.window < 2 ^ s.params.windowBits ∧ s.esc < 2 ^ s.params.escBits

/-- R134, R133: whatever the environment answers, a running command is back in IDLE within the bound. -/
def Obligations.RunningCallReturnsToIdle : Prop :=
  ∀ s : State, s.Inv → s.port = none → s.powerOn = false → s.phase ≠ .idle →
    ∃ k t, k ≤ 5 + (s.params.escalationMax + 1) * s.params.windowMax + 6 * s.params.escalationMax ∧
      core.run k s = .next t ∧ t.phase = .idle

/-- R109: SEND and RECEIVE are one algorithm. From one initialised IDLE state the step that accepts SEND b and the
one that accepts RECEIVE give twin states; and for the same answers the step of a RECEIVE then follows that of the
SEND, access for access but for the payload of WR_DATA, and RESULT on success. -/
def Obligations.SendAndReceiveRunOneAlgorithm : Prop :=
  (∀ (s : State) (b d : Byte) (rest : List (BitVec 10)),
    s.phase = .idle → s.initDone = true → s.port = none → s.powerOn = false →
    ∃ u v,
      step { s with program := (0x200#10 + b.setWidth 10) :: rest } = .next u ∧
      step { s with program := (0x300#10 + d.setWidth 10) :: rest } = .next v ∧
      u.phase = .drain ∧ u.tx = b ∧ v.tx = s.params.dummyFill ∧
      Twins (s.trace ++ [.accept (0x200#10 + b.setWidth 10)]) (s.trace ++ [.accept (0x300#10 + d.setWidth 10)]) u v) ∧
  (∀ (xs ys : List Event) (s t s' : State),
    Twins xs ys s t → s.phase.transferring = true → s.callWritten = true → s.port = none → s.powerOn = false →
    step s = .next s' → ∃ t', step t = .next t' ∧ Twins xs ys s' t')

/-- R208 under R56, R57, R60, R63 (`P_contract`, R68) with at least one reset permitted: every step keeps that a
success in a call without a reset stands on a completed exchange of `tx`. -/
def Obligations.SuccessWithoutResetMeansDelivery : Prop :=
  ∀ s t : State, s.Inv → CallOk s → 1 ≤ s.params.escalationMax → DeliveryOk s → step s = .next t → DeliveryOk t

/-! ## Whole calls -/

/-- S1 of 95_test_vectors.md, by R106, R107, R121 to R126 and R69: against `AlwaysReady(d)` from any launch state
SEND v ends in ACK and RECEIVE in BYTE d, in seven steps with the six accesses of S1. -/
def Obligations.AlwaysReadyTransfersSucceed : Prop :=
  ∀ (s : State) (d v : Byte) (rest : List (BitVec 10)),
    s.phase = .idle → s.initDone = true → s.port = none → s.powerOn = false → s.env = .alwaysReady d →
    1 ≤ s.params.windowMax →
    (s.program = (0x200#10 + v.setWidth 10) :: rest →
      ∃ t, core.run 7 s = .next t ∧ t.phase = .idle ∧ t.result = .ack ∧ t.ssN = true ∧ t.program = rest ∧
        t.esc = 0 ∧ t.window = s.params.windowMax ∧
        t.trace = s.trace ++ [.accept (0x200#10 + v.setWidth 10), .access 0x000#12 (some d), .access 0xC00#12 none,
          .access (0x800#12 + v.setWidth 12) none, .access 0x100#12 (some 0x01#8), .access 0xC01#12 none,
          .access 0x000#12 (some d), .result .ack]) ∧
    (s.program = 0x300#10 :: rest →
      ∃ t, core.run 7 s = .next t ∧ t.phase = .idle ∧ t.result = .byte d ∧ t.ssN = true ∧ t.program = rest ∧
        t.esc = 0 ∧ t.window = s.params.windowMax ∧
        t.trace = s.trace ++ [.accept 0x300#10, .access 0x000#12 (some d), .access 0xC00#12 none,
          .access (0x800#12 + s.params.dummyFill.setWidth 12) none, .access 0x100#12 (some 0x01#8),
          .access 0xC01#12 none, .access 0x000#12 (some d), .result (.byte d)])

/-- S3 of 95_test_vectors.md, by R124, R127, R158, R171 and R69: against `NeverReady` a SEND ends in TIMEOUT after
exactly ESCALATION_MAX resets and `(ESCALATION_MAX + 1) * WINDOW_MAX` polls, in the number of steps R218 gives (and
the acceptance), with the line deasserted. -/
def Obligations.NeverReadyTransfersTimeOut : Prop :=
  ∀ (s : State) (b : Byte) (rest : List (BitVec 10)),
    s.Inv → s.phase = .idle → s.initDone = true → s.port = none → s.powerOn = false → s.env = .neverReady →
    s.program = (0x200#10 + b.setWidth 10) :: rest →
      ∃ t, core.run (5 + (s.params.escalationMax + 1) * s.params.windowMax + 6 * s.params.escalationMax) s = .next t ∧
        t.phase = .idle ∧ t.result = .timeout ∧ t.ssN = true ∧ t.esc = s.params.escalationMax ∧ t.window = 0 ∧
        resetCount (callTrace t.trace) = s.params.escalationMax ∧
        pollCount (callTrace t.trace) = (s.params.escalationMax + 1) * s.params.windowMax

/-- S4 of 95_test_vectors.md, by R124, R156 and R69: against `StallThenRecover(d)`, with a reset permitted, a
RECEIVE succeeds after one reset and `WINDOW_MAX + 1` polls. -/
def Obligations.StalledReceiveRecoversAfterOneReset : Prop :=
  ∀ (s : State) (d : Byte) (rest : List (BitVec 10)),
    s.Inv → s.phase = .idle → s.initDone = true → s.port = none → s.powerOn = false →
    s.env = stallThenRecover s.params d → 1 ≤ s.params.escalationMax → s.program = 0x300#10 :: rest →
      ∃ t, core.run (13 + s.params.windowMax) s = .next t ∧ t.phase = .idle ∧ t.result = .byte d ∧ t.ssN = true ∧
        t.esc = 1 ∧ t.window = s.params.windowMax ∧ resetCount (callTrace t.trace) = 1 ∧
        pollCount (callTrace t.trace) = s.params.windowMax + 1
end

