-- ==== Sys2Proof/Laws/State.lean ====
section
/-! SUPPORT. One lemma per field per update of State, true by rfl. -/

namespace Sys2Proof.Machine

/-! ### goto -/

@[simp] theorem State.goto_phase (s : State) (p : Phase) : (s.goto p).phase = p := rfl
@[simp] theorem State.goto_variant (s : State) (p : Phase) : (s.goto p).variant = s.variant := rfl
@[simp] theorem State.goto_tx (s : State) (p : Phase) : (s.goto p).tx = s.tx := rfl
@[simp] theorem State.goto_window (s : State) (p : Phase) : (s.goto p).window = s.window := rfl
@[simp] theorem State.goto_esc (s : State) (p : Phase) : (s.goto p).esc = s.esc := rfl
@[simp] theorem State.goto_result (s : State) (p : Phase) : (s.goto p).result = s.result := rfl
@[simp] theorem State.goto_initDone (s : State) (p : Phase) : (s.goto p).initDone = s.initDone := rfl
@[simp] theorem State.goto_mem (s : State) (p : Phase) : (s.goto p).mem = s.mem := rfl
@[simp] theorem State.goto_inflight (s : State) (p : Phase) : (s.goto p).inflight = s.inflight := rfl
@[simp] theorem State.goto_out (s : State) (p : Phase) : (s.goto p).out = s.out := rfl
@[simp] theorem State.goto_trace (s : State) (p : Phase) : (s.goto p).trace = s.trace := rfl
@[simp] theorem State.goto_params (s : State) (p : Phase) : (s.goto p).params = s.params := rfl
@[simp] theorem State.goto_callWritten (s : State) (p : Phase) : (s.goto p).callWritten = s.callWritten := rfl
@[simp] theorem State.goto_env (s : State) (p : Phase) : (s.goto p).env = s.env := rfl
@[simp] theorem State.goto_polls (s : State) (p : Phase) : (s.goto p).polls = s.polls := rfl
@[simp] theorem State.goto_draws (s : State) (p : Phase) : (s.goto p).draws = s.draws := rfl
@[simp] theorem State.goto_program (s : State) (p : Phase) : (s.goto p).program = s.program := rfl
@[simp] theorem State.goto_port (s : State) (p : Phase) : (s.goto p).port = s.port := rfl
@[simp] theorem State.goto_powerOn (s : State) (p : Phase) : (s.goto p).powerOn = s.powerOn := rfl

/-! ### emit -/

@[simp] theorem State.emit_phase (s : State) (e : Event) : (s.emit e).phase = s.phase := rfl
@[simp] theorem State.emit_variant (s : State) (e : Event) : (s.emit e).variant = s.variant := rfl
@[simp] theorem State.emit_tx (s : State) (e : Event) : (s.emit e).tx = s.tx := rfl
@[simp] theorem State.emit_window (s : State) (e : Event) : (s.emit e).window = s.window := rfl
@[simp] theorem State.emit_esc (s : State) (e : Event) : (s.emit e).esc = s.esc := rfl
@[simp] theorem State.emit_result (s : State) (e : Event) : (s.emit e).result = s.result := rfl
@[simp] theorem State.emit_initDone (s : State) (e : Event) : (s.emit e).initDone = s.initDone := rfl
@[simp] theorem State.emit_mem (s : State) (e : Event) : (s.emit e).mem = s.mem := rfl
@[simp] theorem State.emit_inflight (s : State) (e : Event) : (s.emit e).inflight = s.inflight := rfl
@[simp] theorem State.emit_out (s : State) (e : Event) : (s.emit e).out = s.out := rfl
@[simp] theorem State.emit_trace (s : State) (e : Event) : (s.emit e).trace = s.trace ++ [e] := rfl
@[simp] theorem State.emit_params (s : State) (e : Event) : (s.emit e).params = s.params := rfl
@[simp] theorem State.emit_callWritten (s : State) (e : Event) : (s.emit e).callWritten = s.callWritten := rfl
@[simp] theorem State.emit_env (s : State) (e : Event) : (s.emit e).env = s.env := rfl
@[simp] theorem State.emit_polls (s : State) (e : Event) : (s.emit e).polls = s.polls := rfl
@[simp] theorem State.emit_draws (s : State) (e : Event) : (s.emit e).draws = s.draws := rfl
@[simp] theorem State.emit_program (s : State) (e : Event) : (s.emit e).program = s.program := rfl
@[simp] theorem State.emit_port (s : State) (e : Event) : (s.emit e).port = s.port := rfl
@[simp] theorem State.emit_powerOn (s : State) (e : Event) : (s.emit e).powerOn = s.powerOn := rfl

/-! ### setResult -/

@[simp] theorem State.setResult_phase (s : State) (r : Result) : (s.setResult r).phase = s.phase := rfl
@[simp] theorem State.setResult_variant (s : State) (r : Result) : (s.setResult r).variant = s.variant := rfl
@[simp] theorem State.setResult_tx (s : State) (r : Result) : (s.setResult r).tx = s.tx := rfl
@[simp] theorem State.setResult_window (s : State) (r : Result) : (s.setResult r).window = s.window := rfl
@[simp] theorem State.setResult_esc (s : State) (r : Result) : (s.setResult r).esc = s.esc := rfl
@[simp] theorem State.setResult_result (s : State) (r : Result) : (s.setResult r).result = r := rfl
@[simp] theorem State.setResult_initDone (s : State) (r : Result) : (s.setResult r).initDone = s.initDone := rfl
@[simp] theorem State.setResult_mem (s : State) (r : Result) : (s.setResult r).mem = s.mem := rfl
@[simp] theorem State.setResult_inflight (s : State) (r : Result) : (s.setResult r).inflight = s.inflight := rfl
@[simp] theorem State.setResult_out (s : State) (r : Result) : (s.setResult r).out = s.out := rfl
@[simp] theorem State.setResult_trace (s : State) (r : Result) : (s.setResult r).trace = s.trace := rfl
@[simp] theorem State.setResult_params (s : State) (r : Result) : (s.setResult r).params = s.params := rfl
@[simp] theorem State.setResult_callWritten (s : State) (r : Result) : (s.setResult r).callWritten = s.callWritten := rfl
@[simp] theorem State.setResult_env (s : State) (r : Result) : (s.setResult r).env = s.env := rfl
@[simp] theorem State.setResult_polls (s : State) (r : Result) : (s.setResult r).polls = s.polls := rfl
@[simp] theorem State.setResult_draws (s : State) (r : Result) : (s.setResult r).draws = s.draws := rfl
@[simp] theorem State.setResult_program (s : State) (r : Result) : (s.setResult r).program = s.program := rfl
@[simp] theorem State.setResult_port (s : State) (r : Result) : (s.setResult r).port = s.port := rfl
@[simp] theorem State.setResult_powerOn (s : State) (r : Result) : (s.setResult r).powerOn = s.powerOn := rfl

/-! ### setWindow -/

@[simp] theorem State.setWindow_phase (s : State) (w : Nat) : (s.setWindow w).phase = s.phase := rfl
@[simp] theorem State.setWindow_variant (s : State) (w : Nat) : (s.setWindow w).variant = s.variant := rfl
@[simp] theorem State.setWindow_tx (s : State) (w : Nat) : (s.setWindow w).tx = s.tx := rfl
@[simp] theorem State.setWindow_window (s : State) (w : Nat) : (s.setWindow w).window = w := rfl
@[simp] theorem State.setWindow_esc (s : State) (w : Nat) : (s.setWindow w).esc = s.esc := rfl
@[simp] theorem State.setWindow_result (s : State) (w : Nat) : (s.setWindow w).result = s.result := rfl
@[simp] theorem State.setWindow_initDone (s : State) (w : Nat) : (s.setWindow w).initDone = s.initDone := rfl
@[simp] theorem State.setWindow_mem (s : State) (w : Nat) : (s.setWindow w).mem = s.mem := rfl
@[simp] theorem State.setWindow_inflight (s : State) (w : Nat) : (s.setWindow w).inflight = s.inflight := rfl
@[simp] theorem State.setWindow_out (s : State) (w : Nat) : (s.setWindow w).out = s.out := rfl
@[simp] theorem State.setWindow_trace (s : State) (w : Nat) : (s.setWindow w).trace = s.trace := rfl
@[simp] theorem State.setWindow_params (s : State) (w : Nat) : (s.setWindow w).params = s.params := rfl
@[simp] theorem State.setWindow_callWritten (s : State) (w : Nat) : (s.setWindow w).callWritten = s.callWritten := rfl
@[simp] theorem State.setWindow_env (s : State) (w : Nat) : (s.setWindow w).env = s.env := rfl
@[simp] theorem State.setWindow_polls (s : State) (w : Nat) : (s.setWindow w).polls = s.polls := rfl
@[simp] theorem State.setWindow_draws (s : State) (w : Nat) : (s.setWindow w).draws = s.draws := rfl
@[simp] theorem State.setWindow_program (s : State) (w : Nat) : (s.setWindow w).program = s.program := rfl
@[simp] theorem State.setWindow_port (s : State) (w : Nat) : (s.setWindow w).port = s.port := rfl
@[simp] theorem State.setWindow_powerOn (s : State) (w : Nat) : (s.setWindow w).powerOn = s.powerOn := rfl

/-! ### setLoc -/

@[simp] theorem State.setLoc_phase (s : State) (l : Loc) (v : Byte) : (s.setLoc l v).phase = s.phase := rfl
@[simp] theorem State.setLoc_variant (s : State) (l : Loc) (v : Byte) : (s.setLoc l v).variant = s.variant := rfl
@[simp] theorem State.setLoc_tx (s : State) (l : Loc) (v : Byte) : (s.setLoc l v).tx = s.tx := rfl
@[simp] theorem State.setLoc_window (s : State) (l : Loc) (v : Byte) : (s.setLoc l v).window = s.window := rfl
@[simp] theorem State.setLoc_esc (s : State) (l : Loc) (v : Byte) : (s.setLoc l v).esc = s.esc := rfl
@[simp] theorem State.setLoc_result (s : State) (l : Loc) (v : Byte) : (s.setLoc l v).result = s.result := rfl
@[simp] theorem State.setLoc_initDone (s : State) (l : Loc) (v : Byte) : (s.setLoc l v).initDone = s.initDone := rfl
@[simp] theorem State.setLoc_mem (s : State) (l : Loc) (v : Byte) : (s.setLoc l v).mem = Memory.write s.mem l.key v := rfl
@[simp] theorem State.setLoc_inflight (s : State) (l : Loc) (v : Byte) : (s.setLoc l v).inflight = s.inflight := rfl
@[simp] theorem State.setLoc_out (s : State) (l : Loc) (v : Byte) : (s.setLoc l v).out = s.out := rfl
@[simp] theorem State.setLoc_trace (s : State) (l : Loc) (v : Byte) : (s.setLoc l v).trace = s.trace := rfl
@[simp] theorem State.setLoc_params (s : State) (l : Loc) (v : Byte) : (s.setLoc l v).params = s.params := rfl
@[simp] theorem State.setLoc_callWritten (s : State) (l : Loc) (v : Byte) : (s.setLoc l v).callWritten = s.callWritten := rfl
@[simp] theorem State.setLoc_env (s : State) (l : Loc) (v : Byte) : (s.setLoc l v).env = s.env := rfl
@[simp] theorem State.setLoc_polls (s : State) (l : Loc) (v : Byte) : (s.setLoc l v).polls = s.polls := rfl
@[simp] theorem State.setLoc_draws (s : State) (l : Loc) (v : Byte) : (s.setLoc l v).draws = s.draws := rfl
@[simp] theorem State.setLoc_program (s : State) (l : Loc) (v : Byte) : (s.setLoc l v).program = s.program := rfl
@[simp] theorem State.setLoc_port (s : State) (l : Loc) (v : Byte) : (s.setLoc l v).port = s.port := rfl
@[simp] theorem State.setLoc_powerOn (s : State) (l : Loc) (v : Byte) : (s.setLoc l v).powerOn = s.powerOn := rfl

/-! ### clearDone -/

@[simp] theorem State.clearDone_phase (s : State) : s.clearDone.phase = s.phase := rfl
@[simp] theorem State.clearDone_variant (s : State) : s.clearDone.variant = s.variant := rfl
@[simp] theorem State.clearDone_tx (s : State) : s.clearDone.tx = s.tx := rfl
@[simp] theorem State.clearDone_window (s : State) : s.clearDone.window = s.window := rfl
@[simp] theorem State.clearDone_esc (s : State) : s.clearDone.esc = s.esc := rfl
@[simp] theorem State.clearDone_result (s : State) : s.clearDone.result = s.result := rfl
@[simp] theorem State.clearDone_initDone (s : State) : s.clearDone.initDone = s.initDone := rfl
@[simp] theorem State.clearDone_mem (s : State) : s.clearDone.mem = Memory.write s.mem Loc.stat.key (clearDoneBit (s.loc .stat)) := rfl
@[simp] theorem State.clearDone_inflight (s : State) : s.clearDone.inflight = s.inflight := rfl
@[simp] theorem State.clearDone_out (s : State) : s.clearDone.out = s.out := rfl
@[simp] theorem State.clearDone_trace (s : State) : s.clearDone.trace = s.trace := rfl
@[simp] theorem State.clearDone_params (s : State) : s.clearDone.params = s.params := rfl
@[simp] theorem State.clearDone_callWritten (s : State) : s.clearDone.callWritten = s.callWritten := rfl
@[simp] theorem State.clearDone_env (s : State) : s.clearDone.env = s.env := rfl
@[simp] theorem State.clearDone_polls (s : State) : s.clearDone.polls = s.polls := rfl
@[simp] theorem State.clearDone_draws (s : State) : s.clearDone.draws = s.draws := rfl
@[simp] theorem State.clearDone_program (s : State) : s.clearDone.program = s.program := rfl
@[simp] theorem State.clearDone_port (s : State) : s.clearDone.port = s.port := rfl
@[simp] theorem State.clearDone_powerOn (s : State) : s.clearDone.powerOn = s.powerOn := rfl

/-! ### setDone -/

@[simp] theorem State.setDone_phase (s : State) : s.setDone.phase = s.phase := rfl
@[simp] theorem State.setDone_variant (s : State) : s.setDone.variant = s.variant := rfl
@[simp] theorem State.setDone_tx (s : State) : s.setDone.tx = s.tx := rfl
@[simp] theorem State.setDone_window (s : State) : s.setDone.window = s.window := rfl
@[simp] theorem State.setDone_esc (s : State) : s.setDone.esc = s.esc := rfl
@[simp] theorem State.setDone_result (s : State) : s.setDone.result = s.result := rfl
@[simp] theorem State.setDone_initDone (s : State) : s.setDone.initDone = s.initDone := rfl
@[simp] theorem State.setDone_mem (s : State) : s.setDone.mem = Memory.write s.mem Loc.stat.key (setDoneBit (s.loc .stat)) := rfl
@[simp] theorem State.setDone_inflight (s : State) : s.setDone.inflight = s.inflight := rfl
@[simp] theorem State.setDone_out (s : State) : s.setDone.out = s.out := rfl
@[simp] theorem State.setDone_trace (s : State) : s.setDone.trace = s.trace := rfl
@[simp] theorem State.setDone_params (s : State) : s.setDone.params = s.params := rfl
@[simp] theorem State.setDone_callWritten (s : State) : s.setDone.callWritten = s.callWritten := rfl
@[simp] theorem State.setDone_env (s : State) : s.setDone.env = s.env := rfl
@[simp] theorem State.setDone_polls (s : State) : s.setDone.polls = s.polls := rfl
@[simp] theorem State.setDone_draws (s : State) : s.setDone.draws = s.draws := rfl
@[simp] theorem State.setDone_program (s : State) : s.setDone.program = s.program := rfl
@[simp] theorem State.setDone_port (s : State) : s.setDone.port = s.port := rfl
@[simp] theorem State.setDone_powerOn (s : State) : s.setDone.powerOn = s.powerOn := rfl

/-! ### setInitDone -/

@[simp] theorem State.setInitDone_phase (s : State) : (s.setInitDone).phase = s.phase := rfl
@[simp] theorem State.setInitDone_variant (s : State) : (s.setInitDone).variant = s.variant := rfl
@[simp] theorem State.setInitDone_tx (s : State) : (s.setInitDone).tx = s.tx := rfl
@[simp] theorem State.setInitDone_window (s : State) : (s.setInitDone).window = s.window := rfl
@[simp] theorem State.setInitDone_esc (s : State) : (s.setInitDone).esc = s.esc := rfl
@[simp] theorem State.setInitDone_result (s : State) : (s.setInitDone).result = s.result := rfl
@[simp] theorem State.setInitDone_initDone (s : State) : (s.setInitDone).initDone = true := rfl
@[simp] theorem State.setInitDone_mem (s : State) : (s.setInitDone).mem = s.mem := rfl
@[simp] theorem State.setInitDone_inflight (s : State) : (s.setInitDone).inflight = s.inflight := rfl
@[simp] theorem State.setInitDone_out (s : State) : (s.setInitDone).out = s.out := rfl
@[simp] theorem State.setInitDone_trace (s : State) : (s.setInitDone).trace = s.trace := rfl
@[simp] theorem State.setInitDone_params (s : State) : (s.setInitDone).params = s.params := rfl
@[simp] theorem State.setInitDone_callWritten (s : State) : (s.setInitDone).callWritten = s.callWritten := rfl
@[simp] theorem State.setInitDone_env (s : State) : (s.setInitDone).env = s.env := rfl
@[simp] theorem State.setInitDone_polls (s : State) : (s.setInitDone).polls = s.polls := rfl
@[simp] theorem State.setInitDone_draws (s : State) : (s.setInitDone).draws = s.draws := rfl
@[simp] theorem State.setInitDone_program (s : State) : (s.setInitDone).program = s.program := rfl
@[simp] theorem State.setInitDone_port (s : State) : (s.setInitDone).port = s.port := rfl
@[simp] theorem State.setInitDone_powerOn (s : State) : (s.setInitDone).powerOn = s.powerOn := rfl

/-! ### reloadRetry -/

@[simp] theorem reloadRetry_phase (s : State) : (reloadRetry s).phase = s.phase := rfl
@[simp] theorem reloadRetry_variant (s : State) : (reloadRetry s).variant = s.variant := rfl
@[simp] theorem reloadRetry_tx (s : State) : (reloadRetry s).tx = s.tx := rfl
@[simp] theorem reloadRetry_window (s : State) : (reloadRetry s).window = s.params.windowMax := rfl
@[simp] theorem reloadRetry_esc (s : State) : (reloadRetry s).esc = incrementedEsc s := rfl
@[simp] theorem reloadRetry_result (s : State) : (reloadRetry s).result = s.result := rfl
@[simp] theorem reloadRetry_initDone (s : State) : (reloadRetry s).initDone = s.initDone := rfl
@[simp] theorem reloadRetry_mem (s : State) : (reloadRetry s).mem = s.mem := rfl
@[simp] theorem reloadRetry_inflight (s : State) : (reloadRetry s).inflight = s.inflight := rfl
@[simp] theorem reloadRetry_out (s : State) : (reloadRetry s).out = s.out := rfl
@[simp] theorem reloadRetry_trace (s : State) : (reloadRetry s).trace = s.trace := rfl
@[simp] theorem reloadRetry_params (s : State) : (reloadRetry s).params = s.params := rfl
@[simp] theorem reloadRetry_callWritten (s : State) : (reloadRetry s).callWritten = s.callWritten := rfl
@[simp] theorem reloadRetry_env (s : State) : (reloadRetry s).env = s.env := rfl
@[simp] theorem reloadRetry_polls (s : State) : (reloadRetry s).polls = s.polls := rfl
@[simp] theorem reloadRetry_draws (s : State) : (reloadRetry s).draws = if s.esc < s.params.escalationMax then s.draws else s.draws + 1 := rfl
@[simp] theorem reloadRetry_program (s : State) : (reloadRetry s).program = s.program := rfl
@[simp] theorem reloadRetry_port (s : State) : (reloadRetry s).port = s.port := rfl
@[simp] theorem reloadRetry_powerOn (s : State) : (reloadRetry s).powerOn = s.powerOn := rfl

/-! ### acceptTransfer -/

@[simp] theorem acceptTransfer_phase (s : State) (c : BitVec 10) (v : Variant) (b : Byte) : (acceptTransfer c v b s).phase = .drain := rfl
@[simp] theorem acceptTransfer_variant (s : State) (c : BitVec 10) (v : Variant) (b : Byte) : (acceptTransfer c v b s).variant = v := rfl
@[simp] theorem acceptTransfer_tx (s : State) (c : BitVec 10) (v : Variant) (b : Byte) : (acceptTransfer c v b s).tx = b := rfl
@[simp] theorem acceptTransfer_window (s : State) (c : BitVec 10) (v : Variant) (b : Byte) : (acceptTransfer c v b s).window = s.params.windowMax := rfl
@[simp] theorem acceptTransfer_esc (s : State) (c : BitVec 10) (v : Variant) (b : Byte) : (acceptTransfer c v b s).esc = 0 := rfl
@[simp] theorem acceptTransfer_result (s : State) (c : BitVec 10) (v : Variant) (b : Byte) : (acceptTransfer c v b s).result = .none := rfl
@[simp] theorem acceptTransfer_initDone (s : State) (c : BitVec 10) (v : Variant) (b : Byte) : (acceptTransfer c v b s).initDone = s.initDone := rfl
@[simp] theorem acceptTransfer_mem (s : State) (c : BitVec 10) (v : Variant) (b : Byte) : (acceptTransfer c v b s).mem = s.mem := rfl
@[simp] theorem acceptTransfer_inflight (s : State) (c : BitVec 10) (v : Variant) (b : Byte) : (acceptTransfer c v b s).inflight = s.inflight := rfl
@[simp] theorem acceptTransfer_out (s : State) (c : BitVec 10) (v : Variant) (b : Byte) : (acceptTransfer c v b s).out = s.out := rfl
@[simp] theorem acceptTransfer_trace (s : State) (c : BitVec 10) (v : Variant) (b : Byte) : (acceptTransfer c v b s).trace = s.trace ++ [.accept c] := rfl
@[simp] theorem acceptTransfer_params (s : State) (c : BitVec 10) (v : Variant) (b : Byte) : (acceptTransfer c v b s).params = s.params := rfl
@[simp] theorem acceptTransfer_callWritten (s : State) (c : BitVec 10) (v : Variant) (b : Byte) : (acceptTransfer c v b s).callWritten = true := rfl
@[simp] theorem acceptTransfer_env (s : State) (c : BitVec 10) (v : Variant) (b : Byte) : (acceptTransfer c v b s).env = s.env := rfl
@[simp] theorem acceptTransfer_polls (s : State) (c : BitVec 10) (v : Variant) (b : Byte) : (acceptTransfer c v b s).polls = 0 := rfl
@[simp] theorem acceptTransfer_draws (s : State) (c : BitVec 10) (v : Variant) (b : Byte) : (acceptTransfer c v b s).draws = s.draws := rfl
@[simp] theorem acceptTransfer_program (s : State) (c : BitVec 10) (v : Variant) (b : Byte) : (acceptTransfer c v b s).program = s.program := rfl
@[simp] theorem acceptTransfer_port (s : State) (c : BitVec 10) (v : Variant) (b : Byte) : (acceptTransfer c v b s).port = s.port := rfl
@[simp] theorem acceptTransfer_powerOn (s : State) (c : BitVec 10) (v : Variant) (b : Byte) : (acceptTransfer c v b s).powerOn = s.powerOn := rfl

end Sys2Proof.Machine
end

