-- ==== Sys2Proof/Laws/Memory.lean ====
section
/-! SUPPORT. Read after write, and the canonical form is kept. -/

namespace Sys2Proof.Machine

theorem Memory.read_erase_same (m : Memory) (a : Nat) : Memory.read (Memory.erase m a) a = Memory.unlisted a := by
  induction m with
  | nil => rfl
  | cons c m ih =>
    obtain ⟨k, v⟩ := c
    by_cases h : k = a
    · simpa [Memory.erase, h] using ih
    · simpa [Memory.erase, h, Memory.read] using ih

theorem Memory.read_erase_other (m : Memory) {a b : Nat} (h : b ≠ a) :
    Memory.read (Memory.erase m a) b = Memory.read m b := by
  induction m with
  | nil => rfl
  | cons c m ih =>
    obtain ⟨k, v⟩ := c
    by_cases hk : k = a
    · have : k ≠ b := by omega
      simpa [Memory.erase, hk, Memory.read, Ne.symm h] using ih
    · simp only [Memory.erase, List.filter_cons, bne_iff_ne, ne_eq, hk, not_false_eq_true, ↓reduceIte, Memory.read]
      split
      · rfl
      · exact ih

theorem Memory.read_insert_other (m : Memory) (v : Byte) {a b : Nat} (h : b ≠ a) :
    Memory.read (Memory.insert a v m) b = Memory.read m b := by
  induction m with
  | nil => simp [Memory.insert, Memory.read, Ne.symm h]
  | cons c m ih =>
    obtain ⟨k, x⟩ := c
    simp only [Memory.insert]
    split
    · simp [Memory.read, Ne.symm h]
    · simp [Memory.read, ih]

theorem Memory.read_insert_same (m : Memory) (v : Byte) (a : Nat) (h : ∀ c ∈ m, c.1 ≠ a) :
    Memory.read (Memory.insert a v m) a = v := by
  induction m with
  | nil => simp [Memory.insert, Memory.read]
  | cons c m ih =>
    obtain ⟨k, x⟩ := c
    have hk : k ≠ a := h (k, x) (by simp)
    simp only [Memory.insert]
    split
    · simp [Memory.read]
    · simpa [Memory.read, hk] using ih (fun c hc => h c (by simp [hc]))

/-- Read after write, at the same address. -/
@[simp] theorem Memory.read_write_same (m : Memory) (a : Nat) (v : Byte) :
    Memory.read (Memory.write m a v) a = v := by
  unfold Memory.write
  split
  · next h => rw [Memory.read_erase_same, h]
  · exact Memory.read_insert_same _ _ _ (by simp [Memory.erase])

/-- A write leaves every other address alone. -/
theorem Memory.read_write_other (m : Memory) (v : Byte) {a b : Nat} (h : b ≠ a) :
    Memory.read (Memory.write m a v) b = Memory.read m b := by
  unfold Memory.write
  split
  · exact Memory.read_erase_other m h
  · rw [Memory.read_insert_other _ _ h, Memory.read_erase_other m h]

/-! ### The canonical form -/

theorem Memory.wfFrom_mono {lo lo' : Nat} (h : lo' ≤ lo) {m : Memory} (hm : Memory.wfFrom lo m = true) :
    Memory.wfFrom lo' m = true := by
  cases m with
  | nil => rfl
  | cons c m =>
    obtain ⟨k, v⟩ := c
    simp only [Memory.wfFrom, Bool.and_eq_true, decide_eq_true_eq] at hm ⊢
    exact ⟨⟨⟨by omega, hm.1.1.2⟩, hm.1.2⟩, hm.2⟩

theorem Memory.wfFrom_erase (a : Nat) {lo : Nat} {m : Memory} (hm : Memory.wfFrom lo m = true) :
    Memory.wfFrom lo (Memory.erase m a) = true := by
  induction m generalizing lo with
  | nil => rfl
  | cons c m ih =>
    obtain ⟨k, v⟩ := c
    simp only [Memory.wfFrom, Bool.and_eq_true, decide_eq_true_eq, bne_iff_ne, ne_eq] at hm
    have hrest := ih hm.2
    by_cases hk : k = a
    · simpa [Memory.erase, hk] using Memory.wfFrom_mono (by omega : lo ≤ k + 1) hrest
    · simp only [Memory.erase, List.filter_cons, bne_iff_ne, ne_eq, hk, not_false_eq_true, ↓reduceIte,
        Memory.wfFrom, Bool.and_eq_true, decide_eq_true_eq, bne_iff_ne]
      exact ⟨hm.1, hrest⟩

theorem Memory.wfFrom_insert {a lo : Nat} {v : Byte} {m : Memory} (hlo : lo ≤ a) (ha : a < 5)
    (hv : v ≠ Memory.unlisted a) (hm : Memory.wfFrom lo m = true) (hne : ∀ c ∈ m, c.1 ≠ a) :
    Memory.wfFrom lo (Memory.insert a v m) = true := by
  induction m generalizing lo with
  | nil => simp [Memory.insert, Memory.wfFrom, hlo, ha, hv]
  | cons c m ih =>
    obtain ⟨k, x⟩ := c
    have hka : k ≠ a := hne (k, x) (by simp)
    simp only [Memory.wfFrom, Bool.and_eq_true, decide_eq_true_eq, bne_iff_ne, ne_eq] at hm
    simp only [Memory.insert]
    split
    · simp only [Memory.wfFrom, Bool.and_eq_true, decide_eq_true_eq, bne_iff_ne, ne_eq]
      exact ⟨⟨⟨hlo, ha⟩, hv⟩, ⟨⟨by omega, hm.1.1.2⟩, hm.1.2⟩, hm.2⟩
    · simp only [Memory.wfFrom, Bool.and_eq_true, decide_eq_true_eq, bne_iff_ne, ne_eq]
      exact ⟨⟨⟨hm.1.1.1, hm.1.1.2⟩, hm.1.2⟩, ih (by omega) hm.2 (fun c hc => hne c (by simp [hc]))⟩

/-- A write to a populated address keeps the canonical form. -/
theorem Memory.wf_write {m : Memory} {a : Nat} (v : Byte) (ha : a < 5) (hm : Memory.wf m = true) :
    Memory.wf (Memory.write m a v) = true := by
  unfold Memory.write Memory.wf at *
  split
  · exact Memory.wfFrom_erase a hm
  · next hv => exact Memory.wfFrom_insert (Nat.zero_le a) ha hv (Memory.wfFrom_erase a hm) (by simp [Memory.erase])

/-! ### Locations -/

theorem Loc.key_lt_five (l : Loc) : l.key < 5 := by cases l <;> decide

theorem Loc.key_injective {l l' : Loc} (h : l.key = l'.key) : l = l' := by
  revert h; cases l <;> cases l' <;> decide

@[simp] theorem State.loc_setLoc_same (s : State) (l : Loc) (v : Byte) : (s.setLoc l v).loc l = v :=
  Memory.read_write_same _ _ _

theorem State.loc_setLoc_other (s : State) {l l' : Loc} (v : Byte) (h : l' ≠ l) : (s.setLoc l v).loc l' = s.loc l' :=
  Memory.read_write_other _ _ (fun e => h (Loc.key_injective e))

/-- A location's byte after any location's write. -/
@[simp] theorem State.loc_setLoc (s : State) (l l' : Loc) (v : Byte) :
    (s.setLoc l v).loc l' = if l' = l then v else s.loc l' := by
  split
  · next h => subst h; exact State.loc_setLoc_same s l' v
  · next h => exact State.loc_setLoc_other s v h

theorem State.wf_setLoc {s : State} (l : Loc) (v : Byte) (h : Memory.wf s.mem = true) :
    Memory.wf (s.setLoc l v).mem = true :=
  Memory.wf_write v l.key_lt_five h

/-- A state's locations depend on its memory only. -/
theorem State.loc_congr {s t : State} (h : t.mem = s.mem) (l : Loc) : t.loc l = s.loc l := by
  unfold State.loc; rw [h]

@[simp] theorem State.loc_goto (s : State) (p : Phase) (l : Loc) : (s.goto p).loc l = s.loc l := rfl
@[simp] theorem State.loc_emit (s : State) (e : Event) (l : Loc) : (s.emit e).loc l = s.loc l := rfl
@[simp] theorem State.loc_setResult (s : State) (r : Result) (l : Loc) : (s.setResult r).loc l = s.loc l := rfl
@[simp] theorem State.loc_setWindow (s : State) (w : Nat) (l : Loc) : (s.setWindow w).loc l = s.loc l := rfl

@[simp] theorem State.loc_setInitDone (s : State) (l : Loc) : s.setInitDone.loc l = s.loc l := rfl
@[simp] theorem loc_reloadRetry (s : State) (l : Loc) : (reloadRetry s).loc l = s.loc l := rfl
@[simp] theorem loc_acceptTransfer (s : State) (c : BitVec 10) (v : Variant) (b : Byte) (l : Loc) :
    (acceptTransfer c v b s).loc l = s.loc l := rfl

@[simp] theorem State.loc_clearDone (s : State) (l : Loc) :
    s.clearDone.loc l = if l = .stat then clearDoneBit (s.loc .stat) else s.loc l :=
  State.loc_setLoc s .stat l _

@[simp] theorem State.loc_setDone (s : State) (l : Loc) :
    s.setDone.loc l = if l = .stat then setDoneBit (s.loc .stat) else s.loc l :=
  State.loc_setLoc s .stat l _

@[simp] theorem answerDone_clearDoneBit (v : Byte) : answerDone (clearDoneBit v) = false := by
  simp [answerDone, clearDoneBit]

@[simp] theorem answerDone_setDoneBit (v : Byte) : answerDone (setDoneBit v) = true := by
  simp [answerDone, setDoneBit]

@[simp] theorem answerDone_zext8 (b : Bool) : answerDone (zext8 b) = b := by cases b <;> rfl

@[simp] theorem State.done_clearDone (s : State) : s.clearDone.done = false := by simp [State.done]

@[simp] theorem State.done_setDone (s : State) : s.setDone.done = true := by simp [State.done]

end Sys2Proof.Machine
end

