-- ==== Sys2Proof/Laws/Ops.lean ====
section
/-! SUPPORT. What each shared operation does, said once, so that later proofs cite it and do not unfold it. -/

namespace Sys2Proof.Machine

/-! ### Request words -/

@[simp] theorem readWord_data : readWord .data = 0x000#12 := rfl
@[simp] theorem readWord_stat : readWord .stat = 0x100#12 := rfl
@[simp] theorem writeWord_stat : writeWord .stat 0x00#8 = 0x900#12 := rfl
@[simp] theorem writeWord_disable : writeWord .ctrl 0x00#8 = 0xA00#12 := rfl
@[simp] theorem writeWord_enable : writeWord .ctrl 0x01#8 = 0xA01#12 := rfl
@[simp] theorem writeWord_cfg : writeWord .cfg 0x00#8 = 0xB00#12 := rfl
@[simp] theorem writeWord_assert : writeWord .ssport 0x00#8 = 0xC00#12 := rfl
@[simp] theorem writeWord_deassert : writeWord .ssport 0x01#8 = 0xC01#12 := rfl

/-- A DATA write's request word is `0x800 + b` (R88). -/
theorem writeWord_data_high (b : Byte) : (writeWord .data b).extractLsb' 8 4 = 8#4 := by
  revert b; decide

theorem writeWord_data_ne (b : Byte) {w : BitVec 12} (h : w.extractLsb' 8 4 ≠ 8#4) : writeWord .data b ≠ w := by
  rintro rfl; exact h (writeWord_data_high b)

/-! ### The far side of a read -/

@[simp] theorem memRead_phase (l : Loc) (s : State) : (memRead l s).phase = s.phase := by cases l <;> rfl
@[simp] theorem memRead_variant (l : Loc) (s : State) : (memRead l s).variant = s.variant := by cases l <;> rfl
@[simp] theorem memRead_tx (l : Loc) (s : State) : (memRead l s).tx = s.tx := by cases l <;> rfl
@[simp] theorem memRead_window (l : Loc) (s : State) : (memRead l s).window = s.window := by cases l <;> rfl
@[simp] theorem memRead_esc (l : Loc) (s : State) : (memRead l s).esc = s.esc := by cases l <;> rfl
@[simp] theorem memRead_result (l : Loc) (s : State) : (memRead l s).result = s.result := by cases l <;> rfl
@[simp] theorem memRead_initDone (l : Loc) (s : State) : (memRead l s).initDone = s.initDone := by cases l <;> rfl
@[simp] theorem memRead_params (l : Loc) (s : State) : (memRead l s).params = s.params := by cases l <;> rfl
@[simp] theorem memRead_callWritten (l : Loc) (s : State) : (memRead l s).callWritten = s.callWritten := by cases l <;> rfl
@[simp] theorem memRead_program (l : Loc) (s : State) : (memRead l s).program = s.program := by cases l <;> rfl
@[simp] theorem memRead_port (l : Loc) (s : State) : (memRead l s).port = s.port := by cases l <;> rfl
@[simp] theorem memRead_powerOn (l : Loc) (s : State) : (memRead l s).powerOn = s.powerOn := by cases l <;> rfl
@[simp] theorem memRead_inflight (l : Loc) (s : State) : (memRead l s).inflight = s.inflight := by cases l <;> rfl
@[simp] theorem memRead_out (l : Loc) (s : State) : (memRead l s).out = s.out := by cases l <;> rfl
@[simp] theorem memRead_draws (l : Loc) (s : State) : (memRead l s).draws = s.draws := by cases l <;> rfl

/-- A read is on the trace with its answer (R52). -/
@[simp] theorem memRead_trace (l : Loc) (s : State) :
    (memRead l s).trace = s.trace ++ [.access (readWord l) (some (s.answer l))] := by cases l <;> rfl

@[simp] theorem memRead_polls (l : Loc) (s : State) :
    (memRead l s).polls = if l = .stat then s.polls + 1 else s.polls := by cases l <;> rfl

theorem memRead_env (l : Loc) (s : State) : (memRead l s).env = s.env.afterRead l := by
  cases l
  case data => rfl
  case stat => rfl
  all_goals cases h : s.env
  all_goals simp [memRead, afterRead, Env.afterRead, h]

@[simp] theorem memRead_isContract (l : Loc) (s : State) : (memRead l s).env.isContract = s.env.isContract := by
  rw [memRead_env]; cases s.env <;> (cases l <;> rfl)

/-- A DATA read clears STAT.DONE (R56) and changes no other byte. -/
@[simp] theorem memRead_data_mem (s : State) : (memRead .data s).mem = s.clearDone.mem := rfl

/-- A STAT read has no side effect on the locations (R58). -/
@[simp] theorem memRead_stat_mem (s : State) : (memRead .stat s).mem = s.mem := rfl

/-! ### The far side of a write -/

@[simp] theorem drawLocations_phase (s : State) : (drawLocations s).phase = s.phase := rfl
@[simp] theorem drawLocations_variant (s : State) : (drawLocations s).variant = s.variant := rfl
@[simp] theorem drawLocations_tx (s : State) : (drawLocations s).tx = s.tx := rfl
@[simp] theorem drawLocations_window (s : State) : (drawLocations s).window = s.window := rfl
@[simp] theorem drawLocations_esc (s : State) : (drawLocations s).esc = s.esc := rfl
@[simp] theorem drawLocations_result (s : State) : (drawLocations s).result = s.result := rfl
@[simp] theorem drawLocations_initDone (s : State) : (drawLocations s).initDone = s.initDone := rfl
@[simp] theorem drawLocations_params (s : State) : (drawLocations s).params = s.params := rfl
@[simp] theorem drawLocations_callWritten (s : State) : (drawLocations s).callWritten = s.callWritten := rfl
@[simp] theorem drawLocations_program (s : State) : (drawLocations s).program = s.program := rfl
@[simp] theorem drawLocations_port (s : State) : (drawLocations s).port = s.port := rfl
@[simp] theorem drawLocations_powerOn (s : State) : (drawLocations s).powerOn = s.powerOn := rfl
@[simp] theorem drawLocations_inflight (s : State) : (drawLocations s).inflight = s.inflight := rfl
@[simp] theorem drawLocations_out (s : State) : (drawLocations s).out = s.out := rfl
@[simp] theorem drawLocations_trace (s : State) : (drawLocations s).trace = s.trace := rfl
@[simp] theorem drawLocations_env (s : State) : (drawLocations s).env = s.env := rfl
@[simp] theorem drawLocations_polls (s : State) : (drawLocations s).polls = s.polls := rfl

/-- Only DATA and STAT are drawn. -/
theorem drawLocations_loc (s : State) {l : Loc} (hd : l ≠ .data) (hs : l ≠ .stat) :
    (drawLocations s).loc l = s.loc l := by
  show ((s.setLoc .data _).setLoc .stat _).loc l = s.loc l
  simp [hd, hs]

theorem wf_drawLocations {s : State} (h : Memory.wf s.mem = true) : Memory.wf (drawLocations s).mem = true :=
  State.wf_setLoc (s := s.setLoc .data _) .stat _ (State.wf_setLoc .data _ h)

/-- A CTRL write in the bare environment draws DATA and STAT; in the others it keeps them. -/
theorem writeEnable_cases (v : Byte) (s : State) :
    (s.env = .bare ∧
      writeEnable v s = drawLocations { s.setLoc .ctrl v with inflight := s.inflight && v.getLsbD 0 }) ∨
    (s.env ≠ .bare ∧ writeEnable v s = { s.setLoc .ctrl v with inflight := s.inflight && v.getLsbD 0 }) := by
  unfold writeEnable
  cases h : s.env <;> simp

@[simp] theorem writeEnable_phase (v : Byte) (s : State) : (writeEnable v s).phase = s.phase := by
  rcases writeEnable_cases v s with ⟨-, h⟩ | ⟨-, h⟩ <;> rw [h] <;> rfl
@[simp] theorem writeEnable_variant (v : Byte) (s : State) : (writeEnable v s).variant = s.variant := by
  rcases writeEnable_cases v s with ⟨-, h⟩ | ⟨-, h⟩ <;> rw [h] <;> rfl
@[simp] theorem writeEnable_tx (v : Byte) (s : State) : (writeEnable v s).tx = s.tx := by
  rcases writeEnable_cases v s with ⟨-, h⟩ | ⟨-, h⟩ <;> rw [h] <;> rfl
@[simp] theorem writeEnable_window (v : Byte) (s : State) : (writeEnable v s).window = s.window := by
  rcases writeEnable_cases v s with ⟨-, h⟩ | ⟨-, h⟩ <;> rw [h] <;> rfl
@[simp] theorem writeEnable_esc (v : Byte) (s : State) : (writeEnable v s).esc = s.esc := by
  rcases writeEnable_cases v s with ⟨-, h⟩ | ⟨-, h⟩ <;> rw [h] <;> rfl
@[simp] theorem writeEnable_result (v : Byte) (s : State) : (writeEnable v s).result = s.result := by
  rcases writeEnable_cases v s with ⟨-, h⟩ | ⟨-, h⟩ <;> rw [h] <;> rfl
@[simp] theorem writeEnable_initDone (v : Byte) (s : State) : (writeEnable v s).initDone = s.initDone := by
  rcases writeEnable_cases v s with ⟨-, h⟩ | ⟨-, h⟩ <;> rw [h] <;> rfl
@[simp] theorem writeEnable_params (v : Byte) (s : State) : (writeEnable v s).params = s.params := by
  rcases writeEnable_cases v s with ⟨-, h⟩ | ⟨-, h⟩ <;> rw [h] <;> rfl
@[simp] theorem writeEnable_callWritten (v : Byte) (s : State) : (writeEnable v s).callWritten = s.callWritten := by
  rcases writeEnable_cases v s with ⟨-, h⟩ | ⟨-, h⟩ <;> rw [h] <;> rfl
@[simp] theorem writeEnable_program (v : Byte) (s : State) : (writeEnable v s).program = s.program := by
  rcases writeEnable_cases v s with ⟨-, h⟩ | ⟨-, h⟩ <;> rw [h] <;> rfl
@[simp] theorem writeEnable_port (v : Byte) (s : State) : (writeEnable v s).port = s.port := by
  rcases writeEnable_cases v s with ⟨-, h⟩ | ⟨-, h⟩ <;> rw [h] <;> rfl
@[simp] theorem writeEnable_powerOn (v : Byte) (s : State) : (writeEnable v s).powerOn = s.powerOn := by
  rcases writeEnable_cases v s with ⟨-, h⟩ | ⟨-, h⟩ <;> rw [h] <;> rfl
@[simp] theorem writeEnable_out (v : Byte) (s : State) : (writeEnable v s).out = s.out := by
  rcases writeEnable_cases v s with ⟨-, h⟩ | ⟨-, h⟩ <;> rw [h] <;> rfl
@[simp] theorem writeEnable_trace (v : Byte) (s : State) : (writeEnable v s).trace = s.trace := by
  rcases writeEnable_cases v s with ⟨-, h⟩ | ⟨-, h⟩ <;> rw [h] <;> rfl
@[simp] theorem writeEnable_env (v : Byte) (s : State) : (writeEnable v s).env = s.env := by
  rcases writeEnable_cases v s with ⟨-, h⟩ | ⟨-, h⟩ <;> rw [h] <;> rfl
@[simp] theorem writeEnable_polls (v : Byte) (s : State) : (writeEnable v s).polls = s.polls := by
  rcases writeEnable_cases v s with ⟨-, h⟩ | ⟨-, h⟩ <;> rw [h] <;> rfl

@[simp] theorem writeEnable_inflight (v : Byte) (s : State) :
    (writeEnable v s).inflight = (s.inflight && v.getLsbD 0) := by
  rcases writeEnable_cases v s with ⟨-, h⟩ | ⟨-, h⟩
  · rw [h]; rfl
  · rw [h]

/-- A CTRL write stores its byte and leaves CFG and SSPORT alone. -/
theorem writeEnable_loc (v : Byte) (s : State) {l : Loc} (hd : l ≠ .data) (hs : l ≠ .stat) :
    (writeEnable v s).loc l = if l = .ctrl then v else s.loc l := by
  rcases writeEnable_cases v s with ⟨-, h⟩ | ⟨-, h⟩ <;> rw [h]
  · rw [drawLocations_loc _ hd hs]; exact State.loc_setLoc s .ctrl l v
  · exact State.loc_setLoc s .ctrl l v

/-- Outside the bare environment a CTRL write changes no location but CTRL. -/
theorem writeEnable_loc_of_ne_bare (v : Byte) {s : State} (hb : s.env ≠ .bare) (l : Loc) :
    (writeEnable v s).loc l = if l = .ctrl then v else s.loc l := by
  rcases writeEnable_cases v s with ⟨h, -⟩ | ⟨-, h⟩
  · exact absurd h hb
  · rw [h]; exact State.loc_setLoc s .ctrl l v

theorem wf_writeEnable (v : Byte) {s : State} (hs : Memory.wf s.mem = true) :
    Memory.wf (writeEnable v s).mem = true := by
  rcases writeEnable_cases v s with ⟨-, h⟩ | ⟨-, h⟩ <;> rw [h]
  · exact wf_drawLocations (s := { s.setLoc .ctrl v with inflight := _ }) (State.wf_setLoc .ctrl v hs)
  · exact State.wf_setLoc .ctrl v hs

@[simp] theorem memWrite_phase (l : Loc) (v : Byte) (s : State) : (memWrite l v s).phase = s.phase := by
  cases l <;> simp [memWrite, afterWrite, startExchange]
@[simp] theorem memWrite_variant (l : Loc) (v : Byte) (s : State) : (memWrite l v s).variant = s.variant := by
  cases l <;> simp [memWrite, afterWrite, startExchange]
@[simp] theorem memWrite_tx (l : Loc) (v : Byte) (s : State) : (memWrite l v s).tx = s.tx := by
  cases l <;> simp [memWrite, afterWrite, startExchange]
@[simp] theorem memWrite_window (l : Loc) (v : Byte) (s : State) : (memWrite l v s).window = s.window := by
  cases l <;> simp [memWrite, afterWrite, startExchange]
@[simp] theorem memWrite_esc (l : Loc) (v : Byte) (s : State) : (memWrite l v s).esc = s.esc := by
  cases l <;> simp [memWrite, afterWrite, startExchange]
@[simp] theorem memWrite_result (l : Loc) (v : Byte) (s : State) : (memWrite l v s).result = s.result := by
  cases l <;> simp [memWrite, afterWrite, startExchange]
@[simp] theorem memWrite_initDone (l : Loc) (v : Byte) (s : State) : (memWrite l v s).initDone = s.initDone := by
  cases l <;> simp [memWrite, afterWrite, startExchange]
@[simp] theorem memWrite_params (l : Loc) (v : Byte) (s : State) : (memWrite l v s).params = s.params := by
  cases l <;> simp [memWrite, afterWrite, startExchange]
@[simp] theorem memWrite_callWritten (l : Loc) (v : Byte) (s : State) : (memWrite l v s).callWritten = s.callWritten := by
  cases l <;> simp [memWrite, afterWrite, startExchange]
@[simp] theorem memWrite_program (l : Loc) (v : Byte) (s : State) : (memWrite l v s).program = s.program := by
  cases l <;> simp [memWrite, afterWrite, startExchange]
@[simp] theorem memWrite_port (l : Loc) (v : Byte) (s : State) : (memWrite l v s).port = s.port := by
  cases l <;> simp [memWrite, afterWrite, startExchange]
@[simp] theorem memWrite_powerOn (l : Loc) (v : Byte) (s : State) : (memWrite l v s).powerOn = s.powerOn := by
  cases l <;> simp [memWrite, afterWrite, startExchange]
@[simp] theorem memWrite_polls (l : Loc) (v : Byte) (s : State) : (memWrite l v s).polls = s.polls := by
  cases l <;> simp [memWrite, afterWrite, startExchange]

/-- A write is on the trace without a response (R53). -/
@[simp] theorem memWrite_trace (l : Loc) (v : Byte) (s : State) :
    (memWrite l v s).trace = s.trace ++ [.access (writeWord l v) none] := by
  cases l <;> simp [memWrite, afterWrite, startExchange]

@[simp] theorem memWrite_out (l : Loc) (v : Byte) (s : State) :
    (memWrite l v s).out = if l = .data then v else s.out := by
  cases l <;> simp [memWrite, afterWrite, startExchange]

@[simp] theorem memWrite_inflight (l : Loc) (v : Byte) (s : State) :
    (memWrite l v s).inflight =
      if l = .data then true else if l = .ctrl then s.inflight && v.getLsbD 0 else s.inflight := by
  cases l <;> simp [memWrite, afterWrite, startExchange]

/-- Only a DATA write can change the environment, and only from `P_contract` to the bare oracle (U4). -/
theorem memWrite_env (l : Loc) (v : Byte) (s : State) :
    (memWrite l v s).env =
      if l = .data ∧ s.env.isContract = true ∧ (s.inflight = true ∨ s.en = false) then .bare else s.env := by
  cases l <;> simp [memWrite, afterWrite, startExchange]

/-- A DATA write changes no location: a read answers the last received byte (R56, R57). -/
@[simp] theorem memWrite_data_mem (v : Byte) (s : State) : (memWrite .data v s).mem = s.mem := rfl

/-- CLR_STAT clears STAT.DONE and changes no other byte (R59). -/
@[simp] theorem memWrite_stat_mem (v : Byte) (s : State) : (memWrite .stat v s).mem = s.clearDone.mem := rfl

/-- WR_CFG stores CFG_INIT (R61). -/
@[simp] theorem memWrite_cfg_mem (v : Byte) (s : State) :
    (memWrite .cfg v s).mem = (s.setLoc .cfg s.params.cfgInit).mem := rfl

/-- SET_SS stores the level (R62). -/
@[simp] theorem memWrite_ssport_mem (v : Byte) (s : State) : (memWrite .ssport v s).mem = (s.setLoc .ssport v).mem := rfl

@[simp] theorem memWrite_ctrl_mem (v : Byte) (s : State) : (memWrite .ctrl v s).mem = (writeEnable v s).mem := rfl

theorem wf_memRead (l : Loc) {s : State} (h : Memory.wf s.mem = true) : Memory.wf (memRead l s).mem = true := by
  cases l
  case data => exact State.wf_setLoc .stat _ h
  all_goals exact h

theorem wf_memWrite (l : Loc) (v : Byte) {s : State} (h : Memory.wf s.mem = true) :
    Memory.wf (memWrite l v s).mem = true := by
  cases l
  case data => exact h
  case stat => exact State.wf_setLoc .stat _ h
  case ctrl => exact wf_writeEnable v h
  case cfg => exact State.wf_setLoc .cfg _ h
  case ssport => exact State.wf_setLoc .ssport _ h

/-- The locations after a DATA read: only STAT can differ. -/
theorem memRead_loc (l l' : Loc) (s : State) :
    (memRead l s).loc l' = if l = .data ∧ l' = .stat then clearDoneBit (s.loc .stat) else s.loc l' := by
  cases l
  case data =>
    rw [State.loc_congr (memRead_data_mem s), State.loc_clearDone]; simp
  all_goals simp [memRead, afterRead]
  exact State.loc_congr (memRead_stat_mem s) l'

/-- CTRL, CFG and SSPORT after a write. -/
theorem memWrite_loc (l : Loc) (v : Byte) (s : State) {l' : Loc} (hd : l' ≠ .data) (hs : l' ≠ .stat) :
    (memWrite l v s).loc l' =
      if l' = l then (if l = .cfg then s.params.cfgInit else v) else s.loc l' := by
  cases l
  case data => rw [State.loc_congr (memWrite_data_mem v s)]; simp [hd]
  case stat => rw [State.loc_congr (memWrite_stat_mem v s), State.loc_clearDone]; simp [hs]
  case ctrl => rw [State.loc_congr (memWrite_ctrl_mem v s), writeEnable_loc v s hd hs]; simp
  case cfg => rw [State.loc_congr (memWrite_cfg_mem v s), State.loc_setLoc]; simp
  case ssport => rw [State.loc_congr (memWrite_ssport_mem v s), State.loc_setLoc]; simp

/-! ### The peripheral's move -/

@[simp] theorem complete_phase (v : Byte) (s : State) : (complete v s).phase = s.phase := by
  unfold complete; split <;> rfl
@[simp] theorem complete_variant (v : Byte) (s : State) : (complete v s).variant = s.variant := by
  unfold complete; split <;> rfl
@[simp] theorem complete_tx (v : Byte) (s : State) : (complete v s).tx = s.tx := by
  unfold complete; split <;> rfl
@[simp] theorem complete_window (v : Byte) (s : State) : (complete v s).window = s.window := by
  unfold complete; split <;> rfl
@[simp] theorem complete_esc (v : Byte) (s : State) : (complete v s).esc = s.esc := by
  unfold complete; split <;> rfl
@[simp] theorem complete_result (v : Byte) (s : State) : (complete v s).result = s.result := by
  unfold complete; split <;> rfl
@[simp] theorem complete_initDone (v : Byte) (s : State) : (complete v s).initDone = s.initDone := by
  unfold complete; split <;> rfl
@[simp] theorem complete_params (v : Byte) (s : State) : (complete v s).params = s.params := by
  unfold complete; split <;> rfl
@[simp] theorem complete_callWritten (v : Byte) (s : State) : (complete v s).callWritten = s.callWritten := by
  unfold complete; split <;> rfl
@[simp] theorem complete_program (v : Byte) (s : State) : (complete v s).program = s.program := by
  unfold complete; split <;> rfl
@[simp] theorem complete_port (v : Byte) (s : State) : (complete v s).port = s.port := by
  unfold complete; split <;> rfl
@[simp] theorem complete_powerOn (v : Byte) (s : State) : (complete v s).powerOn = s.powerOn := by
  unfold complete; split <;> rfl
@[simp] theorem complete_trace (v : Byte) (s : State) : (complete v s).trace = s.trace := by
  unfold complete; split <;> rfl
@[simp] theorem complete_polls (v : Byte) (s : State) : (complete v s).polls = s.polls := by
  unfold complete; split <;> rfl
@[simp] theorem complete_out (v : Byte) (s : State) : (complete v s).out = s.out := by
  unfold complete; split <;> rfl
@[simp] theorem complete_env (v : Byte) (s : State) : (complete v s).env = s.env := by
  unfold complete; split <;> rfl

/-- A completion leaves CTRL, CFG and SSPORT alone. -/
theorem complete_loc (v : Byte) (s : State) {l : Loc} (hd : l ≠ .data) (hs : l ≠ .stat) :
    (complete v s).loc l = s.loc l := by
  unfold complete; split
  · show (s.setLoc .data v).setDone.loc l = s.loc l
    simp [hd, hs]
  · rfl

/-- An enabled completion stores the byte received and sets STAT.DONE (R63). -/
theorem complete_enabled (v : Byte) {s : State} (hi : s.inflight = true) (he : s.en = true) (l : Loc) :
    (complete v s).loc l =
      match l with
      | .data => v
      | .stat => setDoneBit (s.loc .stat)
      | l => s.loc l := by
  have h : (complete v s).mem = (s.setLoc .data v).setDone.mem := by simp [complete, hi, he]
  rw [State.loc_congr h]
  cases l <;> simp [State.setDone]

theorem wf_complete (v : Byte) {s : State} (h : Memory.wf s.mem = true) : Memory.wf (complete v s).mem = true := by
  unfold complete; split
  · exact State.wf_setLoc (s := s.setLoc .data v) .stat _ (State.wf_setLoc .data v h)
  · exact h

@[simp] theorem environmentMove_phase (s : State) : (environmentMove s).phase = s.phase := by
  unfold environmentMove bareMove contractMove; repeat' split
  all_goals simp
@[simp] theorem environmentMove_variant (s : State) : (environmentMove s).variant = s.variant := by
  unfold environmentMove bareMove contractMove; repeat' split
  all_goals simp
@[simp] theorem environmentMove_tx (s : State) : (environmentMove s).tx = s.tx := by
  unfold environmentMove bareMove contractMove; repeat' split
  all_goals simp
@[simp] theorem environmentMove_window (s : State) : (environmentMove s).window = s.window := by
  unfold environmentMove bareMove contractMove; repeat' split
  all_goals simp
@[simp] theorem environmentMove_esc (s : State) : (environmentMove s).esc = s.esc := by
  unfold environmentMove bareMove contractMove; repeat' split
  all_goals simp
@[simp] theorem environmentMove_result (s : State) : (environmentMove s).result = s.result := by
  unfold environmentMove bareMove contractMove; repeat' split
  all_goals simp
@[simp] theorem environmentMove_initDone (s : State) : (environmentMove s).initDone = s.initDone := by
  unfold environmentMove bareMove contractMove; repeat' split
  all_goals simp
@[simp] theorem environmentMove_params (s : State) : (environmentMove s).params = s.params := by
  unfold environmentMove bareMove contractMove; repeat' split
  all_goals simp
@[simp] theorem environmentMove_callWritten (s : State) : (environmentMove s).callWritten = s.callWritten := by
  unfold environmentMove bareMove contractMove; repeat' split
  all_goals simp
@[simp] theorem environmentMove_program (s : State) : (environmentMove s).program = s.program := by
  unfold environmentMove bareMove contractMove; repeat' split
  all_goals simp
@[simp] theorem environmentMove_port (s : State) : (environmentMove s).port = s.port := by
  unfold environmentMove bareMove contractMove; repeat' split
  all_goals simp
@[simp] theorem environmentMove_powerOn (s : State) : (environmentMove s).powerOn = s.powerOn := by
  unfold environmentMove bareMove contractMove; repeat' split
  all_goals simp
@[simp] theorem environmentMove_trace (s : State) : (environmentMove s).trace = s.trace := by
  unfold environmentMove bareMove contractMove; repeat' split
  all_goals simp
@[simp] theorem environmentMove_polls (s : State) : (environmentMove s).polls = s.polls := by
  unfold environmentMove bareMove contractMove; repeat' split
  all_goals simp
@[simp] theorem environmentMove_out (s : State) : (environmentMove s).out = s.out := by
  unfold environmentMove bareMove contractMove; repeat' split
  all_goals simp

/-- No environment moves CTRL, CFG or SSPORT (R62, R205, R206). -/
theorem environmentMove_loc (s : State) {l : Loc} (hd : l ≠ .data) (hs : l ≠ .stat) :
    (environmentMove s).loc l = s.loc l := by
  unfold environmentMove bareMove contractMove
  repeat' split
  · exact drawLocations_loc s hd hs
  · rfl
  · exact complete_loc _ _ hd hs
  · exact complete_loc _ _ hd hs
  · rfl
  · exact State.loc_setLoc_other s _ hd
  · exact drawLocations_loc s hd hs
  · exact State.loc_setLoc_other s _ hd
  · exact drawLocations_loc s hd hs

theorem wf_environmentMove {s : State} (h : Memory.wf s.mem = true) : Memory.wf (environmentMove s).mem = true := by
  unfold environmentMove bareMove contractMove
  repeat' split
  · exact wf_drawLocations h
  · exact h
  · exact wf_complete _ h
  · exact wf_complete _ h
  · exact h
  · exact State.wf_setLoc .data _ h
  · exact wf_drawLocations h
  · exact State.wf_setLoc .data _ h
  · exact wf_drawLocations h

/-- The line drifts only while it is undriven, and then nothing else moves. -/
theorem driftLine_cases (s : State) :
    (lineUndriven s = true ∧
      driftLine s = { s.setLoc .ssport (Config.freeByte s.draws) with draws := s.draws + 1 }) ∨
    (lineUndriven s = false ∧ driftLine s = s) := by
  unfold driftLine; cases lineUndriven s <;> simp

@[simp] theorem driftLine_phase (s : State) : (driftLine s).phase = s.phase := by
  rcases driftLine_cases s with ⟨-, h⟩ | ⟨-, h⟩
  · rw [h]; rfl
  · rw [h]
@[simp] theorem driftLine_variant (s : State) : (driftLine s).variant = s.variant := by
  rcases driftLine_cases s with ⟨-, h⟩ | ⟨-, h⟩
  · rw [h]; rfl
  · rw [h]
@[simp] theorem driftLine_tx (s : State) : (driftLine s).tx = s.tx := by
  rcases driftLine_cases s with ⟨-, h⟩ | ⟨-, h⟩
  · rw [h]; rfl
  · rw [h]
@[simp] theorem driftLine_window (s : State) : (driftLine s).window = s.window := by
  rcases driftLine_cases s with ⟨-, h⟩ | ⟨-, h⟩
  · rw [h]; rfl
  · rw [h]
@[simp] theorem driftLine_esc (s : State) : (driftLine s).esc = s.esc := by
  rcases driftLine_cases s with ⟨-, h⟩ | ⟨-, h⟩
  · rw [h]; rfl
  · rw [h]
@[simp] theorem driftLine_result (s : State) : (driftLine s).result = s.result := by
  rcases driftLine_cases s with ⟨-, h⟩ | ⟨-, h⟩
  · rw [h]; rfl
  · rw [h]
@[simp] theorem driftLine_initDone (s : State) : (driftLine s).initDone = s.initDone := by
  rcases driftLine_cases s with ⟨-, h⟩ | ⟨-, h⟩
  · rw [h]; rfl
  · rw [h]
@[simp] theorem driftLine_params (s : State) : (driftLine s).params = s.params := by
  rcases driftLine_cases s with ⟨-, h⟩ | ⟨-, h⟩
  · rw [h]; rfl
  · rw [h]
@[simp] theorem driftLine_callWritten (s : State) : (driftLine s).callWritten = s.callWritten := by
  rcases driftLine_cases s with ⟨-, h⟩ | ⟨-, h⟩
  · rw [h]; rfl
  · rw [h]
@[simp] theorem driftLine_program (s : State) : (driftLine s).program = s.program := by
  rcases driftLine_cases s with ⟨-, h⟩ | ⟨-, h⟩
  · rw [h]; rfl
  · rw [h]
@[simp] theorem driftLine_port (s : State) : (driftLine s).port = s.port := by
  rcases driftLine_cases s with ⟨-, h⟩ | ⟨-, h⟩
  · rw [h]; rfl
  · rw [h]
@[simp] theorem driftLine_powerOn (s : State) : (driftLine s).powerOn = s.powerOn := by
  rcases driftLine_cases s with ⟨-, h⟩ | ⟨-, h⟩
  · rw [h]; rfl
  · rw [h]
@[simp] theorem driftLine_trace (s : State) : (driftLine s).trace = s.trace := by
  rcases driftLine_cases s with ⟨-, h⟩ | ⟨-, h⟩
  · rw [h]; rfl
  · rw [h]
@[simp] theorem driftLine_polls (s : State) : (driftLine s).polls = s.polls := by
  rcases driftLine_cases s with ⟨-, h⟩ | ⟨-, h⟩
  · rw [h]; rfl
  · rw [h]
@[simp] theorem driftLine_out (s : State) : (driftLine s).out = s.out := by
  rcases driftLine_cases s with ⟨-, h⟩ | ⟨-, h⟩
  · rw [h]; rfl
  · rw [h]
@[simp] theorem driftLine_inflight (s : State) : (driftLine s).inflight = s.inflight := by
  rcases driftLine_cases s with ⟨-, h⟩ | ⟨-, h⟩
  · rw [h]; rfl
  · rw [h]
@[simp] theorem driftLine_env (s : State) : (driftLine s).env = s.env := by
  rcases driftLine_cases s with ⟨-, h⟩ | ⟨-, h⟩
  · rw [h]; rfl
  · rw [h]

@[simp] theorem peripheralMove_phase (s : State) : (peripheralMove s).phase = s.phase := by simp [peripheralMove]
@[simp] theorem peripheralMove_variant (s : State) : (peripheralMove s).variant = s.variant := by simp [peripheralMove]
@[simp] theorem peripheralMove_tx (s : State) : (peripheralMove s).tx = s.tx := by simp [peripheralMove]
@[simp] theorem peripheralMove_window (s : State) : (peripheralMove s).window = s.window := by simp [peripheralMove]
@[simp] theorem peripheralMove_esc (s : State) : (peripheralMove s).esc = s.esc := by simp [peripheralMove]
@[simp] theorem peripheralMove_result (s : State) : (peripheralMove s).result = s.result := by simp [peripheralMove]
@[simp] theorem peripheralMove_initDone (s : State) : (peripheralMove s).initDone = s.initDone := by simp [peripheralMove]
@[simp] theorem peripheralMove_params (s : State) : (peripheralMove s).params = s.params := by simp [peripheralMove]
@[simp] theorem peripheralMove_callWritten (s : State) : (peripheralMove s).callWritten = s.callWritten := by simp [peripheralMove]
@[simp] theorem peripheralMove_program (s : State) : (peripheralMove s).program = s.program := by simp [peripheralMove]
@[simp] theorem peripheralMove_port (s : State) : (peripheralMove s).port = s.port := by simp [peripheralMove]
@[simp] theorem peripheralMove_powerOn (s : State) : (peripheralMove s).powerOn = s.powerOn := by simp [peripheralMove]
@[simp] theorem peripheralMove_trace (s : State) : (peripheralMove s).trace = s.trace := by simp [peripheralMove]
@[simp] theorem peripheralMove_polls (s : State) : (peripheralMove s).polls = s.polls := by simp [peripheralMove]
@[simp] theorem peripheralMove_out (s : State) : (peripheralMove s).out = s.out := by simp [peripheralMove]

/-- The peripheral's move leaves CTRL and CFG alone, and SSPORT once it is driven (R62, R205, R206, R212). -/
theorem peripheralMove_loc (s : State) {l : Loc} (hd : l ≠ .data) (hs : l ≠ .stat)
    (hl : l = .ssport → lineUndriven s = false) : (peripheralMove s).loc l = s.loc l := by
  have hu : lineUndriven (environmentMove s) = lineUndriven s := by simp [lineUndriven]
  unfold peripheralMove
  rcases driftLine_cases (environmentMove s) with ⟨h, e⟩ | ⟨-, e⟩ <;> rw [e]
  · have hne : l ≠ .ssport := fun e => by rw [hu, hl e] at h; exact absurd h (by decide)
    rw [← environmentMove_loc s hd hs]
    exact State.loc_setLoc_other (environmentMove s) _ hne
  · exact environmentMove_loc s hd hs

theorem wf_peripheralMove {s : State} (h : Memory.wf s.mem = true) : Memory.wf (peripheralMove s).mem = true := by
  unfold peripheralMove
  rcases driftLine_cases (environmentMove s) with ⟨-, e⟩ | ⟨-, e⟩ <;> rw [e]
  · exact State.wf_setLoc (s := environmentMove s) .ssport _ (wf_environmentMove h)
  · exact wf_environmentMove h

end Sys2Proof.Machine
end

