-- ==== Sys2Proof/Laws/PerInstr.lean ====
section
/-! SUPPORT. Facts about each instruction as syntax, one lemma per constructor. -/

namespace Sys2Proof.Laws.EncodesToItsRow

/-- The word of an instruction belongs to exactly one row of its format, its own (R95; spec/COVERAGE.json: "no word
matches two rows"). -/
def Statement (i : Instr) : Prop := rowsOf (encode i) = [i.mnemonic]

theorem init (data : Byte) : Statement (.init data) := by
  unfold Statement; revert data; decide

theorem send (data : Byte) : Statement (.send data) := by
  unfold Statement; revert data; decide

theorem receive (data : Byte) : Statement (.receive data) := by
  unfold Statement; revert data; decide

theorem resNone : Statement .resNone := by unfold Statement; decide

theorem resAck : Statement .resAck := by unfold Statement; decide

theorem resByte (v : Byte) : Statement (.resByte v) := by
  unfold Statement; revert v; decide

theorem resTimeout : Statement .resTimeout := by unfold Statement; decide

theorem rdData : Statement .rdData := by unfold Statement; decide

theorem wrData (b : Byte) : Statement (.wrData b) := by
  unfold Statement; revert b; decide

theorem rdStat : Statement .rdStat := by unfold Statement; decide

theorem clrStat : Statement .clrStat := by unfold Statement; decide

theorem wrEn (e : Bool) : Statement (.wrEn e) := by
  unfold Statement; revert e; decide

theorem wrCfg : Statement .wrCfg := by unfold Statement; decide

theorem setSs (l : Bool) : Statement (.setSs l) := by
  unfold Statement; revert l; decide

theorem idle : Statement .idle := by unfold Statement; decide

theorem initCfg : Statement .initCfg := by unfold Statement; decide

theorem initSs : Statement .initSs := by unfold Statement; decide

theorem initEn : Statement .initEn := by unfold Statement; decide

theorem drain : Statement .drain := by unfold Statement; decide

theorem select : Statement .select := by unfold Statement; decide

theorem load : Statement .load := by unfold Statement; decide

theorem polling : Statement .polling := by unfold Statement; decide

theorem escDis1 : Statement .escDis1 := by unfold Statement; decide

theorem escEn1 : Statement .escEn1 := by unfold Statement; decide

theorem escDrain : Statement .escDrain := by unfold Statement; decide

theorem escClr : Statement .escClr := by unfold Statement; decide

theorem escDis2 : Statement .escDis2 := by unfold Statement; decide

theorem escEn2 : Statement .escEn2 := by unfold Statement; decide

theorem succeeded : Statement .succeeded := by unfold Statement; decide

theorem collect : Statement .collect := by unfold Statement; decide

theorem timedout : Statement .timedout := by unfold Statement; decide

end Sys2Proof.Laws.EncodesToItsRow
end

