-- ==== Sys2Proof/Laws/Step.lean ====
section
/-! SUPPORT. What a step, a fetch and an acceptance can do, said once; the call's trace event by event. -/

namespace Sys2Proof.Machine

/-- The code of a phase decodes to its micro-operation. -/
@[simp] theorem decode_phaseCode (p : Phase) : decode (.phase (phaseCode p)) = .ok (microOp p) := by cases p <;> rfl

/-- Everything a step that answers a next state can have done. -/
theorem step_cases {s t : State} (h : step s = .next t) :
    (s.powerOn = true ∧ ∃ u, powerOnReset s = .next u ∧ t = peripheralMove u) ∨
    (s.powerOn = false ∧ ∃ i u, decode (fetchWord s) = .ok i ∧ exec i (consumeWord s) = .next u ∧
      t = peripheralMove u) := by
  unfold step at h
  split at h
  · next hp =>
    cases hr : powerOnReset s <;> simp [hr, settle] at h
    exact .inl ⟨hp, _, rfl, h.symm⟩
  · next hp =>
    refine .inr ⟨by simpa using hp, ?_⟩
    cases hd : decode (fetchWord s) with
    | error e => simp [hd] at h
    | ok i =>
      simp only [hd] at h
      cases hx : exec i (consumeWord s) <;> simp [hx, settle] at h
      exact ⟨i, _, rfl, hx, h.symm⟩

/-- With nothing but a caller's command on the port, a step runs a command on a state that differs only in `port`
and `program`, or the micro-operation of `phase`. -/
theorem fetch_cases {s : State} (hb : ∀ t, s.port = some t → ∃ c, t = .command c) :
    (∃ c program, fetchWord s = .command c ∧ consumeWord s = { s with port := none, program := program }) ∨
    (s.port = none ∧ fetchWord s = .phase (phaseCode s.phase) ∧ consumeWord s = s ∧
      (s.phase ≠ .idle ∨ s.program = [])) := by
  cases hp : s.port with
  | some t =>
    obtain ⟨c, rfl⟩ := hb t hp
    exact .inl ⟨c, s.program, by simp only [fetchWord, hp], by simp only [consumeWord, hp]⟩
  | none =>
    simp only [fetchWord, consumeWord, hp]
    split
    · next c cs _ hg =>
      refine .inl ⟨c, cs, rfl, ?_⟩
      rw [← hp]
    · next h =>
      refine .inr ⟨trivial, rfl, rfl, ?_⟩
      by_cases hi : s.phase = .idle
      · cases hg : s.program with
        | nil => exact .inr rfl
        | cons c cs => exact absurd hg (h c cs hi)
      · exact .inl hi

/-- A command word decodes to a host command and to nothing else (R181). -/
theorem decodeCommand_cases {w : BitVec 10} {i : Instr} (h : decodeCommand w = .ok i) :
    i = .init (w.extractLsb' 0 8) ∨ i = .send (w.extractLsb' 0 8) ∨ i = .receive (w.extractLsb' 0 8) := by
  unfold decodeCommand at h
  split at h
  · exact .inl (Except.ok.inj h).symm
  · exact .inr (.inl (Except.ok.inj h).symm)
  · exact .inr (.inr (Except.ok.inj h).symm)
  · cases h

/-- A micro-operation with call registers among its operands answers a next state exactly when they are written. -/
theorem readingCallRegisters_next {s u t : State} :
    readingCallRegisters s u = .next t ↔ s.callWritten = true ∧ t = u := by
  unfold readingCallRegisters
  cases s.callWritten
  · simp
  · simpa using eq_comm

theorem execInit_next {d : Byte} {s t : State} (h : execInit d s = .next t) :
    s.phase = .idle ∧ s.initDone = false ∧ t = (acceptCommand (commandWord 0b01#2 d) s).goto .initCfg := by
  unfold execInit whenIdle State.busy at h
  split at h
  · simp at h
  · split at h <;> simp_all

theorem execSend_next {d : Byte} {s t : State} (h : execSend d s = .next t) :
    s.phase = .idle ∧ s.initDone = true ∧ t = acceptTransfer (commandWord 0b10#2 d) .send d s := by
  unfold execSend whenIdle State.busy at h
  split at h
  · simp at h
  · split at h <;> simp_all [sendOperand]

theorem execReceive_next {d : Byte} {s t : State} (h : execReceive d s = .next t) :
    s.phase = .idle ∧ s.initDone = true ∧
      t = acceptTransfer (commandWord 0b11#2 d) .receive s.params.dummyFill s := by
  unfold execReceive whenIdle State.busy at h
  split at h
  · simp at h
  · split at h <;> simp_all [receiveOperand]

/-- The power-on event: when it is accepted and what it leaves (R200). -/
theorem powerOnReset_next {s t : State} (h : powerOnReset s = .next t) :
    s.phase = .idle ∧ s.trace.any Event.isAccept = false ∧
      t = { s with phase := .idle, result := .none, initDone := false, trace := [], callWritten := false,
                   powerOn := false } := by
  unfold powerOnReset State.busy at h
  split at h
  · simp at h
  · split at h <;> simp_all

/-- Everything a poll can do (R124). -/
theorem poll_cases (s : State) :
    (answerDone (s.answer .stat) = true ∧ poll s = (memRead .stat s).goto .succeeded) ∨
    (answerDone (s.answer .stat) = false ∧ poll s = countPoll (memRead .stat s)) := by
  unfold poll; cases answerDone (s.answer .stat) <;> simp

/-- POLLING answers a next state, that of the poll, exactly when the flag is set or the call registers are written
(R37, R124). -/
theorem execPolling_next {s t : State} :
    execPolling s = .next t ↔ (answerDone (s.answer .stat) = true ∨ s.callWritten = true) ∧ t = poll s := by
  unfold execPolling
  cases answerDone (s.answer .stat)
  · simpa using readingCallRegisters_next
  · simpa using eq_comm

/-- Everything an unsuccessful poll can do with the counters, where `window >= 1` (R124, R131). -/
theorem countPoll_cases (s : State) (hw : 1 ≤ s.window) :
    (2 ≤ s.window ∧ countPoll s = (s.setWindow (s.window - 1)).goto .polling) ∨
    (s.window = 1 ∧ s.esc < s.params.escalationMax ∧ countPoll s = (s.setWindow 0).goto .escDis1) ∨
    (s.window = 1 ∧ s.params.escalationMax ≤ s.esc ∧ countPoll s = raiseTimeout s) := by
  unfold countPoll decrementedWindow
  by_cases h1 : s.window = 1
  · by_cases he : s.esc < s.params.escalationMax
    · exact .inr (.inl ⟨h1, he, by simp [h1, he]; rfl⟩)
    · exact .inr (.inr ⟨h1, by omega, by simp [h1, he]; rfl⟩)
  · have : s.window - 1 ≠ 0 := by omega
    exact .inl ⟨by omega, by simp [hw, this]; rfl⟩

/-- Everything an unsuccessful poll can do, for every `window`: it changes `window`, `phase` and the model's counter of
draws only, the new `window` stays in its range where the old one was, and `phase` follows the new value (R124; log 10
where `window = 0`). -/
theorem countPoll_frame (s : State) :
    ∃ (w : Nat) (p : Phase) (d : Nat), countPoll s = { s with window := w, phase := p, draws := d } ∧
      (s.window ≤ s.params.windowMax → w ≤ s.params.windowMax) ∧ (1 ≤ w → p = .polling) ∧
      (w = 0 → p = if s.esc < s.params.escalationMax then .escDis1 else .timedout) := by
  have range : s.window ≤ s.params.windowMax → decrementedWindow s ≤ s.params.windowMax := by
    intro h
    unfold decrementedWindow
    split
    · omega
    · exact Nat.le_of_lt_succ (Nat.mod_lt _ (Nat.succ_pos _))
  unfold countPoll
  by_cases h0 : decrementedWindow s = 0
  · by_cases he : s.esc < s.params.escalationMax
    · exact ⟨_, _, _, by simp only [h0, he, if_true]; rfl, fun _ => Nat.zero_le _, by omega, fun _ => by simp [he]⟩
    · exact ⟨_, _, _, by simp only [h0, he, if_true, if_false]; rfl, fun _ => Nat.zero_le _, by omega, fun _ => by simp [he]⟩
  · exact ⟨_, _, _, by simp only [h0, if_false]; rfl, range, fun _ => rfl, fun h => absurd h h0⟩

end Sys2Proof.Machine
end

