-- ==== Sys2Proof/Laws/Trace.lean ====
section
/-! SUPPORT. The current call's trace and its counts, event by event. -/

namespace Sys2Proof.Machine

/-! ### The call's trace, event by event -/

@[simp] theorem callTrace_nil : callTrace [] = [] := rfl

theorem callTrace_append (tr : List Event) (e : Event) :
    callTrace (tr ++ [e]) = if e.isAccept then [] else callTrace tr ++ [e] := by
  simp [callTrace, List.foldl_append]

@[simp] theorem callTrace_access (tr : List Event) (r : BitVec 12) (v : Option Byte) :
    callTrace (tr ++ [.access r v]) = callTrace tr ++ [.access r v] := by simp [callTrace_append, Event.isAccept]

@[simp] theorem callTrace_resetBegin (tr : List Event) (k : Nat) :
    callTrace (tr ++ [.resetBegin k]) = callTrace tr ++ [.resetBegin k] := by
  simp [callTrace_append, Event.isAccept]

@[simp] theorem callTrace_result (tr : List Event) (r : Result) :
    callTrace (tr ++ [.result r]) = callTrace tr ++ [.result r] := by simp [callTrace_append, Event.isAccept]

@[simp] theorem callTrace_accept (tr : List Event) (c : BitVec 10) : callTrace (tr ++ [.accept c]) = [] := by
  simp [callTrace_append, Event.isAccept]

/-! ### Counts -/

@[simp] theorem requestCount_nil (w : BitVec 12) : requestCount w [] = 0 := rfl
@[simp] theorem requestCount_access (w r : BitVec 12) (v : Option Byte) (tr : List Event) :
    requestCount w (tr ++ [.access r v]) = requestCount w tr + if r = w then 1 else 0 := by
  simp [requestCount]
@[simp] theorem requestCount_resetBegin (w : BitVec 12) (k : Nat) (tr : List Event) :
    requestCount w (tr ++ [.resetBegin k]) = requestCount w tr := by simp [requestCount]
@[simp] theorem requestCount_result (w : BitVec 12) (r : Result) (tr : List Event) :
    requestCount w (tr ++ [.result r]) = requestCount w tr := by simp [requestCount]

@[simp] theorem pollCount_nil : pollCount [] = 0 := rfl
@[simp] theorem pollCount_access (r : BitVec 12) (v : Option Byte) (tr : List Event) :
    pollCount (tr ++ [.access r v]) = pollCount tr + if r = 0x100#12 then 1 else 0 := requestCount_access _ _ _ _
@[simp] theorem pollCount_resetBegin (k : Nat) (tr : List Event) :
    pollCount (tr ++ [.resetBegin k]) = pollCount tr := requestCount_resetBegin _ _ _
@[simp] theorem pollCount_result (r : Result) (tr : List Event) :
    pollCount (tr ++ [.result r]) = pollCount tr := requestCount_result _ _ _

@[simp] theorem fallCount_nil : fallCount [] = 0 := rfl
@[simp] theorem fallCount_access (r : BitVec 12) (v : Option Byte) (tr : List Event) :
    fallCount (tr ++ [.access r v]) = fallCount tr + if r = 0xC00#12 then 1 else 0 := requestCount_access _ _ _ _
@[simp] theorem fallCount_resetBegin (k : Nat) (tr : List Event) :
    fallCount (tr ++ [.resetBegin k]) = fallCount tr := requestCount_resetBegin _ _ _
@[simp] theorem fallCount_result (r : Result) (tr : List Event) :
    fallCount (tr ++ [.result r]) = fallCount tr := requestCount_result _ _ _

@[simp] theorem riseCount_nil : riseCount [] = 0 := rfl
@[simp] theorem riseCount_access (r : BitVec 12) (v : Option Byte) (tr : List Event) :
    riseCount (tr ++ [.access r v]) = riseCount tr + if r = 0xC01#12 then 1 else 0 := requestCount_access _ _ _ _
@[simp] theorem riseCount_resetBegin (k : Nat) (tr : List Event) :
    riseCount (tr ++ [.resetBegin k]) = riseCount tr := requestCount_resetBegin _ _ _
@[simp] theorem riseCount_result (r : Result) (tr : List Event) :
    riseCount (tr ++ [.result r]) = riseCount tr := requestCount_result _ _ _

@[simp] theorem loadCount_nil : loadCount [] = 0 := rfl
@[simp] theorem loadCount_access (r : BitVec 12) (v : Option Byte) (tr : List Event) :
    loadCount (tr ++ [.access r v]) = loadCount tr + if r.extractLsb' 8 4 = 8#4 then 1 else 0 := by simp [loadCount]
@[simp] theorem loadCount_resetBegin (k : Nat) (tr : List Event) :
    loadCount (tr ++ [.resetBegin k]) = loadCount tr := by simp [loadCount]
@[simp] theorem loadCount_result (r : Result) (tr : List Event) :
    loadCount (tr ++ [.result r]) = loadCount tr := by simp [loadCount]

@[simp] theorem resetCount_nil : resetCount [] = 0 := rfl
@[simp] theorem resetCount_access (r : BitVec 12) (v : Option Byte) (tr : List Event) :
    resetCount (tr ++ [.access r v]) = resetCount tr := by simp [resetCount]
@[simp] theorem resetCount_resetBegin (k : Nat) (tr : List Event) :
    resetCount (tr ++ [.resetBegin k]) = resetCount tr + 1 := by simp [resetCount]
@[simp] theorem resetCount_result (r : Result) (tr : List Event) :
    resetCount (tr ++ [.result r]) = resetCount tr := by simp [resetCount]

@[simp] theorem accessCount_nil : accessCount [] = 0 := rfl
@[simp] theorem accessCount_access (r : BitVec 12) (v : Option Byte) (tr : List Event) :
    accessCount (tr ++ [.access r v]) = accessCount tr + 1 := by simp [accessCount]
@[simp] theorem accessCount_resetBegin (k : Nat) (tr : List Event) :
    accessCount (tr ++ [.resetBegin k]) = accessCount tr := by simp [accessCount]
@[simp] theorem accessCount_result (r : Result) (tr : List Event) :
    accessCount (tr ++ [.result r]) = accessCount tr := by simp [accessCount]

@[simp] theorem resultCount_nil : resultCount [] = 0 := rfl
@[simp] theorem resultCount_access (r : BitVec 12) (v : Option Byte) (tr : List Event) :
    resultCount (tr ++ [.access r v]) = resultCount tr := by simp [resultCount]
@[simp] theorem resultCount_resetBegin (k : Nat) (tr : List Event) :
    resultCount (tr ++ [.resetBegin k]) = resultCount tr := by simp [resultCount]
@[simp] theorem resultCount_result (r : Result) (tr : List Event) :
    resultCount (tr ++ [.result r]) = resultCount tr + 1 := by simp [resultCount]

end Sys2Proof.Machine
end

