-- ==== Sys2Proof/Text.lean ====
section
/-! DEFINITION. The text forms of R92: a host program, one command per line, and the accesses of a trace. Texts are
lists of characters. Which texts are legal beyond R92's examples is the model's choice (DESIGN CHOICE, log 28). -/

namespace Sys2Proof.Text

/-- The pieces of a text between occurrences of a separator. -/
def splitAt (sep : Char) : List Char → List (List Char)
  | [] => [[]]
  | c :: cs =>
    if c = sep then [] :: splitAt sep cs
    else
      match splitAt sep cs with
      | [] => [[c]]
      | w :: ws => (c :: w) :: ws

/-- "A comment starts at `;`" (R92). -/
def stripComment (line : List Char) : List Char := line.takeWhile (· ≠ ';')

/-- The words of a line, between spaces; any number of spaces separates two words. A tab or a carriage return is an
ordinary character of a word (DESIGN CHOICE, log 28). -/
def wordsOf (line : List Char) : List (List Char) := (splitAt ' ' (stripComment line)).filter (· ≠ [])

/-- The value of a digit, decimal or hexadecimal. R92 shows no hexadecimal letter: upper and lower case are both taken
(DESIGN CHOICE, log 28). -/
def digit (c : Char) : Option Nat :=
  if '0'.toNat ≤ c.toNat ∧ c.toNat ≤ '9'.toNat then some (c.toNat - '0'.toNat)
  else if 'A'.toNat ≤ c.toNat ∧ c.toNat ≤ 'F'.toNat then some (c.toNat - 'A'.toNat + 10)
  else if 'a'.toNat ≤ c.toNat ∧ c.toNat ≤ 'f'.toNat then some (c.toNat - 'a'.toNat + 10)
  else none

/-- Digits of a base, most significant first, onto an accumulator. -/
def digits (base acc : Nat) : List Char → Option Nat
  | [] => some acc
  | c :: cs =>
    match digit c with
    | some d => if d < base then digits base (acc * base + d) cs else none
    | none => none

/-- "`<byte>` is 0..255, written 0x42 or 66" (R92). Any number of digits with a value below 256 is taken, so leading
zeros are (0x0042, 066 is decimal), and `0X` is not a prefix (DESIGN CHOICE, log 28). -/
def byte (w : List Char) : Option Byte :=
  let value :=
    match w with
    | [] => none
    | '0' :: 'x' :: [] => none
    | '0' :: 'x' :: ds => digits 16 0 ds
    | ds => digits 10 0 ds
  match value with
  | some n => if n < 256 then some (BitVec.ofNat 8 n) else none
  | none => none

/-- One line: nothing, or a command; `none` is a line R92 does not know. A line with no word is legal, and a command is
written in capitals as R92 writes it (DESIGN CHOICE, log 28). -/
def line (l : List Char) : Option (List Instr) :=
  match wordsOf l with
  | [] => some []
  | [['I', 'N', 'I', 'T']] => some [.init 0#8]
  | [['R', 'E', 'C', 'E', 'I', 'V', 'E']] => some [.receive 0#8]
  | [['S', 'E', 'N', 'D'], b] => (byte b).map (fun v => [.send v])
  | _ => none

/-- The lines in order; one unknown line makes the whole text unknown (DESIGN CHOICE, log 28). -/
def lines : List (List Char) → Option (List Instr)
  | [] => some []
  | l :: ls =>
    match line l, lines ls with
    | some is, some js => some (is ++ js)
    | _, _ => none

/-- The command word of a host command. -/
def commandOf (i : Instr) : Option (BitVec 10) :=
  match encode i with
  | .command w => some w
  | _ => none

/-- A host program as text to the command words the caller issues, in order, in canonical form (R82, R92). -/
def assemble (text : List Char) : Option (List (BitVec 10)) :=
  (lines (splitAt '\n' text)).map (·.filterMap commandOf)

/-- One hexadecimal digit. -/
def hexDigit (n : Nat) : Char := if n < 10 then Char.ofNat (48 + n) else Char.ofNat (55 + n)

/-- A byte as `0x42`: two digits, letters in capitals (DESIGN CHOICE, log 28). -/
def hexByte (b : Byte) : List Char := ['0', 'x', hexDigit (b.toNat / 16), hexDigit (b.toNat % 16)]

/-- One bit. -/
def bit (b : Bool) : List Char := if b then ['1'] else ['0']

/-- An access as R92 writes it, without its response. -/
def access : Instr → Option (List Char)
  | .rdData => some ['R', 'D', '_', 'D', 'A', 'T', 'A']
  | .wrData b => some (['W', 'R', '_', 'D', 'A', 'T', 'A', ' '] ++ hexByte b)
  | .rdStat => some ['R', 'D', '_', 'S', 'T', 'A', 'T']
  | .clrStat => some ['C', 'L', 'R', '_', 'S', 'T', 'A', 'T']
  | .wrEn e => some (['W', 'R', '_', 'E', 'N', ' '] ++ bit e)
  | .wrCfg => some ['W', 'R', '_', 'C', 'F', 'G']
  | .setSs l => some (['S', 'E', 'T', '_', 'S', 'S', ' '] ++ bit l)
  | _ => none

/-- A traced access: its text, "with `-> <byte>` after a read to show the response" (R92). -/
def tracedAccess (req : BitVec 12) (resp : Option Byte) : Option (List Char) :=
  match decodeRequest req with
  | .error _ => none
  | .ok i =>
    match access i, resp with
    | some t, some v => some (t ++ [' ', '-', '>', ' '] ++ hexByte v)
    | some t, none => some t
    | none, _ => none

end Sys2Proof.Text
end

