-- ==== Sys2Proof/Tests/Slice0.lean ====
section
/-! SUPPORT. The model's own tests. Expected values are those of 95_test_vectors.md (its ids are in the comments) or
are read off the numbered rules. The theorems named `test_witness_…` show states that meet the hypotheses of the
statements of Certificates/Slice0/Obligations.lean. -/

namespace Sys2Proof.Machine

/-! ## Words -/

/-- WellFormed refuses an ill-formed word of each format (E7, R90). -/
theorem test_wellformed_refuses :
    (TableWord.command 0x055#10).wellFormed = false ∧ (TableWord.result 0x101#10).wellFormed = false ∧
    (TableWord.request 0x500#12).wellFormed = false ∧ (TableWord.request 0x200#12).wellFormed = false ∧
    (TableWord.request 0x901#12).wellFormed = false ∧ (TableWord.request 0xA02#12).wellFormed = false ∧
    (TableWord.request 0xB01#12).wellFormed = false ∧ (TableWord.request 0x001#12).wellFormed = false ∧
    (TableWord.phase 17#5).wellFormed = false := by decide

/-- The range of R6. -/
theorem test_params_legal_refuses : ({ Config.defaultParams with windowMax := 0 }).legal = false := by decide

/-- The widths of R7 for the defaults. -/
theorem test_widths : Config.defaultParams.windowBits = 8 ∧ Config.defaultParams.escBits = 2 := by decide

/-- E1 to E7. -/
theorem test_decode_commands :
    decode (.command 0b01_00000000#10) = .ok (.init 0x00#8) ∧ decode (.command 0b10_01000010#10) = .ok (.send 0x42#8) ∧
    decode (.command 0x2FF#10) = .ok (.send 0xFF#8) ∧ decode (.command 0b11_10100111#10) = .ok (.receive 0xA7#8) ∧
    decode (.command 0x055#10) = .error .reservedCommand := by decide

/-- E8 to E11. -/
theorem test_decode_results :
    decode (.result 0b00_00000000#10) = .ok .resNone ∧ decode (.result 0x100#10) = .ok .resAck ∧
    decode (.result 0x200#10) = .ok (.resByte 0x00#8) ∧ decode (.result 0b10_11111111#10) = .ok (.resByte 0xFF#8) ∧
    decode (.result 0x300#10) = .ok .resTimeout := by decide

/-- E12. -/
theorem test_decode_requests :
    decode (.request 0x000#12) = .ok .rdData ∧ decode (.request 0b1_000_01000010#12) = .ok (.wrData 0x42#8) ∧
    decode (.request 0x8FF#12) = .ok (.wrData 0xFF#8) ∧ decode (.request 0b0_001_00000000#12) = .ok .rdStat ∧
    decode (.request 0x900#12) = .ok .clrStat ∧ decode (.request 0xA00#12) = .ok (.wrEn false) ∧
    decode (.request 0b1_010_00000001#12) = .ok (.wrEn true) ∧ decode (.request 0xB00#12) = .ok .wrCfg ∧
    decode (.request 0xC00#12) = .ok (.setSs false) ∧ decode (.request 0b1_100_00000001#12) = .ok (.setSs true) := by
  decide

/-- E13 and R89, all seventeen codes in order. -/
theorem test_decode_phases :
    decode (.phase 0#5) = .ok .idle ∧ decode (.phase 1#5) = .ok .initCfg ∧ decode (.phase 2#5) = .ok .initSs ∧
    decode (.phase 3#5) = .ok .initEn ∧ decode (.phase 4#5) = .ok .drain ∧ decode (.phase 5#5) = .ok .select ∧
    decode (.phase 6#5) = .ok .load ∧ decode (.phase 7#5) = .ok .polling ∧ decode (.phase 8#5) = .ok .escDis1 ∧
    decode (.phase 9#5) = .ok .escEn1 ∧ decode (.phase 10#5) = .ok .escDrain ∧ decode (.phase 11#5) = .ok .escClr ∧
    decode (.phase 12#5) = .ok .escDis2 ∧ decode (.phase 13#5) = .ok .escEn2 ∧
    decode (.phase 14#5) = .ok .succeeded ∧ decode (.phase 15#5) = .ok .collect ∧
    decode (.phase 16#5) = .ok .timedout ∧ decode (.phase 31#5) = .error .reservedPhase := by decide

/-- R92: the program P1 and the text of two accesses. -/
theorem test_text :
    Text.assemble "INIT ; set up\nSEND 0x42\nSEND 66\nRECEIVE".toList =
      some [0x100#10, 0x242#10, 0x242#10, 0x300#10] ∧
    Text.assemble "SEND 256".toList = none ∧
    Text.tracedAccess 0x842#12 none = some "WR_DATA 0x42".toList ∧
    Text.tracedAccess 0x100#12 (some 0x01#8) = some "RD_STAT -> 0x01".toList := by decide

/-- Log 28, the model's choices beside R92: hexadecimal letters of both cases, leading zeros, blank lines; a tab, a
carriage return, small letters and `0X` are unknown. -/
theorem test_text_choices :
    Text.assemble "SEND 0xfF\n\n  SEND   0x0042 \nSEND 066\n".toList = some [0x2FF#10, 0x242#10, 0x242#10] ∧
    Text.assemble "SEND\t66".toList = none ∧ Text.assemble "INIT\r\n".toList = none ∧
    Text.assemble "init".toList = none ∧ Text.assemble "SEND 0X42".toList = none := by decide

/-- R93. -/
theorem test_pseudo_instructions :
    encode (exchangeByte (some 0x42#8)) = .command 0x242#10 ∧ encode (exchangeByte none) = .command 0x300#10 ∧
    resetPeripheral.map encode = [8#5, 9#5, 10#5, 11#5, 12#5, 13#5].map TableWord.phase := by decide

/-! ## Single steps -/

/-- A state in a call. -/
def inCall (p : Phase) (w e : Nat) (env : Env) : State :=
  { State.reset with phase := p, initDone := true, callWritten := true, window := w, esc := e, env := env }

/-- The environment that answers the next poll with `a`. -/
def answering (a : Byte) : Env := .script [a] []

/-- What a test looks at after an outcome. -/
def after {α : Type} (f : State → α) : Host.Outcome State Fault Refusal → Option α
  | .next s => some (f s)
  | _ => none

/-- The refusal of an outcome. -/
def refusal : Host.Outcome State Fault Refusal → Option Refusal
  | .refused r => some r
  | _ => none

/-- The fault of an outcome. -/
def faultOf : Host.Outcome State Fault Refusal → Option Fault
  | .fault f => some f
  | _ => none

def counters (s : State) : Phase × Nat × Nat := (s.phase, s.window, s.esc)

/-- T1, T2, T3. -/
theorem test_drain_select_load :
    after (fun s => (s.phase, s.trace)) (step (inCall .drain 255 0 (.script [] [0x7E#8]))) =
      some (.select, [.access 0x000#12 (some 0x7E#8)]) ∧
    after (fun s => (s.phase, s.trace)) (step (inCall .select 255 0 .bare)) =
      some (.load, [.access 0xC00#12 none]) ∧
    after (fun s => (s.phase, s.trace)) (step { inCall .load 255 0 .bare with tx := 0x42#8 }) =
      some (.polling, [.access 0x842#12 none]) := by decide

/-- T4 to T8. -/
theorem test_polling_counts :
    after counters (step (inCall .polling 255 0 (answering 0x01#8))) = some (.succeeded, 255, 0) ∧
    after counters (step (inCall .polling 255 0 (answering 0x00#8))) = some (.polling, 254, 0) ∧
    after counters (step (inCall .polling 2 0 (answering 0x00#8))) = some (.polling, 1, 0) ∧
    after counters (step (inCall .polling 1 0 (answering 0x00#8))) = some (.escDis1, 0, 0) ∧
    after counters (step (inCall .polling 1 1 (answering 0x00#8))) = some (.escDis1, 0, 1) := by decide

/-- T9 to T13, T19. -/
theorem test_polling_timeout_and_flag :
    after counters (step (inCall .polling 1 2 (answering 0x00#8))) = some (.timedout, 0, 2) ∧
    after counters (step (inCall .polling 1 2 (answering 0x01#8))) = some (.succeeded, 1, 2) ∧
    after counters (step (inCall .polling 1 0 (answering 0x01#8))) = some (.succeeded, 1, 0) ∧
    after counters (step (inCall .polling 9 0 (answering 0xFE#8))) = some (.polling, 8, 0) ∧
    after counters (step (inCall .polling 9 0 (answering 0x03#8))) = some (.succeeded, 9, 0) ∧
    after counters (step { inCall .polling 1 0 (answering 0x00#8) with
      params := { Config.defaultParams with escalationMax := 0 } }) = some (.timedout, 0, 0) := by decide

/-- T14 to T18. -/
theorem test_exits :
    after (fun s => (s.phase, s.trace)) (step (inCall .succeeded 255 0 .bare)) =
      some (.collect, [.access 0xC01#12 none]) ∧
    after (fun s => (s.phase, s.result.word, s.trace))
        (step { inCall .collect 255 0 (.alwaysReady 0x3C#8) with variant := .receive }) =
      some (.idle, 0x23C#10, [.access 0x000#12 (some 0x3C#8), .result (.byte 0x3C#8)]) ∧
    after (fun s => (s.phase, s.result.word)) (step (inCall .collect 255 0 (.alwaysReady 0x3C#8))) =
      some (.idle, 0x100#10) ∧
    after (fun s => s.result.word) (step { inCall .collect 255 0 (.alwaysReady 0xFF#8) with variant := .receive }) =
      some 0x2FF#10 ∧
    after (fun s => (s.phase, s.result.word, s.trace)) (step (inCall .timedout 0 2 .bare)) =
      some (.idle, 0x300#10, [.access 0xC01#12 none, .result .timeout]) := by decide

/-- X1 to X8. -/
theorem test_escalator :
    after (fun s => (s.phase, s.trace)) (step (inCall .escDis1 0 0 .bare)) =
      some (.escEn1, [.resetBegin 1, .access 0xA00#12 none]) ∧
    after (fun s => (s.phase, s.trace)) (step (inCall .escEn1 0 0 .bare)) =
      some (.escDrain, [.access 0xA01#12 none]) ∧
    after (fun s => (s.phase, s.trace)) (step (inCall .escDrain 0 0 (.script [] [0x5A#8]))) =
      some (.escClr, [.access 0x000#12 (some 0x5A#8)]) ∧
    after (fun s => (s.phase, s.trace)) (step (inCall .escClr 0 0 .bare)) =
      some (.escDis2, [.access 0x900#12 none]) ∧
    after (fun s => (s.phase, s.trace)) (step (inCall .escDis2 0 0 .bare)) =
      some (.escEn2, [.access 0xA00#12 none]) ∧
    after counters (step (inCall .escEn2 0 0 .bare)) = some (.polling, 255, 1) ∧
    after counters (step (inCall .escEn2 0 1 .bare)) = some (.polling, 255, 2) ∧
    after (·.trace) (step (inCall .escDis1 0 1 .bare)) = some [.resetBegin 2, .access 0xA00#12 none] := by decide

/-- R37, R124: a poll that sees the flag reads no counter; one that does not, reads `window`. -/
theorem test_unwritten_polling :
    after counters (step { State.reset with phase := .polling, env := answering 0x01#8 }) = some (.succeeded, 0, 0) ∧
    faultOf (step { State.reset with phase := .polling, env := answering 0x00#8 }) = some .callRegisterUnwritten := by
  decide

/-- F1 to F5. -/
theorem test_refusals :
    refusal (step { State.reset with program := [0x242#10] }) = some .notInitialised ∧
    refusal (step { State.reset with program := [0x100#10], initDone := true }) = some .initRepeated ∧
    refusal (step { inCall .polling 255 0 .bare with port := some (.command 0x300#10) }) = some .busy ∧
    refusal (step { State.reset with program := [0x042#10] }) = some .reservedCommand ∧
    refusal (step { inCall .load 255 0 .bare with powerOn := true }) = some .resetWhileBusy := by decide

/-- A state behind whose interface DATA, STAT, CTRL, CFG and SSPORT hold given bytes. -/
def holding (data stat ctrl cfg ss : Byte) (s : State) : State :=
  ((((s.setLoc .data data).setLoc .stat stat).setLoc .ctrl ctrl).setLoc .cfg cfg).setLoc .ssport ss

theorem holding_loc (data stat ctrl cfg ss : Byte) (s : State) (l : Loc) :
    (holding data stat ctrl cfg ss s).loc l =
      match l with
      | .data => data
      | .stat => stat
      | .ctrl => ctrl
      | .cfg => cfg
      | .ssport => ss := by
  cases l <;> simp [holding]

/-- `P_contract` with `buf`, `done`, `en` and `inflight` as given, and the line low. -/
def contractState (buf : Byte) (done en inflight : Bool) : State :=
  holding buf (zext8 done) (zext8 en) 0x00#8 0x00#8 { State.reset with env := .contract [], inflight := inflight }

/-- M1: the answer and the flag. -/
theorem test_contract_read_data :
    (contractState 0x7E#8 true true false).answer .data = 0x7E#8 ∧
    after State.done (exec .rdData (contractState 0x7E#8 true true false)) = some false := by
  refine ⟨holding_loc .., ?_⟩
  simp only [after, exec, execRdData, State.done, memRead_loc, contractState, holding_loc]; decide

/-- M2 and M3. -/
theorem test_contract_exchange :
    after (fun s => (s.out, s.inflight)) (exec (.wrData 0x42#8) (contractState 0x7E#8 false true false)) =
      some (0x42#8, true) ∧
    (complete 0x3C#8 (contractState 0x7E#8 false true true)).loc .data = 0x3C#8 ∧
    (complete 0x3C#8 (contractState 0x7E#8 false true true)).done = true := by
  have h : (contractState 0x7E#8 false true true).inflight = true ∧
      (contractState 0x7E#8 false true true).en = true :=
    ⟨rfl, by simp only [State.en, contractState, holding_loc]; decide⟩
  refine ⟨rfl, complete_enabled _ h.1 h.2 .data, ?_⟩
  simp only [State.done, complete_enabled _ h.1 h.2 .stat]
  simp only [contractState, holding_loc]; decide

/-- M4 and M6. -/
theorem test_contract_status_and_disable :
    (contractState 0x3C#8 true true false).answer .stat = 0x01#8 ∧
    after (·.inflight) (exec (.wrEn false) (contractState 0x7E#8 false true true)) = some false ∧
    after State.en (exec (.wrEn false) (contractState 0x7E#8 false true true)) = some false := by
  refine ⟨?_, rfl, ?_⟩
  · show zext8 (answerDone ((contractState 0x3C#8 true true false).loc .stat)) = _
    simp only [contractState, holding_loc]; decide
  · simp only [after, exec, execWrEn, State.en, memWrite_loc _ _ _ (show Loc.ctrl ≠ .data by decide) (by decide)]
    decide

/-! ## Bare numbers -/

/-- Log 11: how a number is read, with its size in whole bytes or in bits. -/
theorem test_decodeTableWord :
    decodeTableWord 16 0x242 = some (.send 0x42#8) ∧ decodeTableWord 16 0x842 = some (.wrData 0x42#8) ∧
    decodeTableWord 16 0x000 = some .rdData ∧ decodeTableWord 12 0x100 = some .rdStat ∧
    decodeTableWord 8 16 = some .timedout ∧ decodeTableWord 8 17 = none ∧ decodeTableWord 16 0x1000 = none := by
  decide

/-- The placed word is the one that runs. -/
theorem test_withFetchWord :
    after (·.trace) (step (State.reset.withFetchWord 16 0x242)) = some [.accept 0x242#10] ∧
    after (·.trace) (step (State.reset.withFetchWord 16 0xC01)) = some [.access 0xC01#12 none] ∧
    after (·.phase) (step (State.reset.withFetchWord 8 13)) = some .polling := by decide

/-! ## Witnesses -/

/-- The launch state of 95_test_vectors.md, in an environment and with commands to issue. -/
def launched (env : Env) (program : List (BitVec 10)) : State :=
  holding 0x7E#8 0x01#8 0x01#8 Config.cfgInit 0x01#8 { inCall .idle 0 0 env with program := program }

/-- A state of a SEND, in a phase, with counters, the enable bit and the line as the phase has them. -/
def sending (p : Phase) (w e : Nat) (en ss : Byte) (env : Env) : State :=
  holding 0x7E#8 0x00#8 en Config.cfgInit ss (inCall p w e env)

theorem holding_wf (data stat ctrl cfg ss : Byte) {s : State} (h : Memory.wf s.mem = true) :
    Memory.wf (holding data stat ctrl cfg ss s).mem = true :=
  State.wf_setLoc _ _ (State.wf_setLoc _ _ (State.wf_setLoc _ _ (State.wf_setLoc _ _ (State.wf_setLoc _ _ h))))

theorem launched_inv (env : Env) (program : List (BitVec 10)) : (launched env program).Inv where
  legal := rfl
  memory := holding_wf _ _ _ _ _ rfl
  noBench := fun _ h => nomatch h
  initialised := by intro h; exact ⟨rfl, rfl⟩
  initialising := by intro h; cases h
  noResult := fun _ => rfl
  range := ⟨Nat.zero_le _, Nat.zero_le _⟩
  counters := trivial
  line := ⟨fun h => Bool.noConfusion h, fun _ => (by simp only [State.ssN, launched, holding_loc]; decide)⟩
  enable := by intro _; simp only [State.en, launched, holding_loc]; decide
  disable := by intro h; rcases h with h | h <;> cases h
  configured := by intro _; exact holding_loc ..

/-- With a command waiting on the port the invariant holds too. -/
theorem launched_port_inv (env : Env) (c : BitVec 10) : ({ launched env [] with port := some (.command c) } : State).Inv :=
  { launched_inv env [] with noBench := by intro t h; cases h; exact ⟨c, rfl⟩ }

theorem polling_inv {w e : Nat} (env : Env) (h : 1 ≤ w ∧ w ≤ 255 ∧ e ≤ 2) :
    (sending .polling w e 0x01#8 0x00#8 env).Inv where
  legal := rfl
  memory := holding_wf _ _ _ _ _ rfl
  noBench := fun _ h => nomatch h
  initialised := fun _ => ⟨rfl, rfl⟩
  initialising := fun h => Bool.noConfusion h
  noResult := fun _ => rfl
  range := ⟨h.2.1, h.2.2⟩
  counters := h
  line := ⟨fun _ => (by simp only [State.ssN, sending, holding_loc]; decide), fun h => Bool.noConfusion h⟩
  enable := fun _ => (by simp only [State.en, sending, holding_loc]; decide)
  disable := by intro h; rcases h with h | h <;> cases h
  configured := fun _ => holding_loc ..

theorem escDis1_inv (env : Env) : (sending .escDis1 0 1 0x01#8 0x00#8 env).Inv where
  legal := rfl
  memory := holding_wf _ _ _ _ _ rfl
  noBench := fun _ h => nomatch h
  initialised := fun _ => ⟨rfl, rfl⟩
  initialising := fun h => Bool.noConfusion h
  noResult := fun _ => rfl
  range := ⟨(by decide : 0 ≤ 255), (by decide : 1 ≤ 2)⟩
  counters := (by decide : 0 = 0 ∧ 1 < 2)
  line := ⟨fun _ => (by simp only [State.ssN, sending, holding_loc]; decide), fun h => Bool.noConfusion h⟩
  enable := fun _ => (by simp only [State.en, sending, holding_loc]; decide)
  disable := by intro h; rcases h with h | h <;> cases h
  configured := fun _ => holding_loc ..

/-- A SEND 0x00 before its first poll, with its trace and its exchange in flight. -/
def midCall (env : Env) : State :=
  { sending .polling 255 0 0x01#8 0x00#8 env with
    inflight := true
    trace := [.accept 0x200#10, .access 0x000#12 (some 0x7E#8), .access 0xC00#12 none, .access 0x800#12 none] }

theorem midCall_inv (env : Env) : (midCall env).Inv :=
  { polling_inv env (w := 255) (e := 0) (by decide) with }

theorem midCall_callOk (env : Env) : CallOk (midCall env) :=
  ⟨fun _ => ⟨rfl, rfl, rfl, rfl, rfl, (by decide : 0 + 255 = (0 + 1) * 255 + 0), rfl⟩, (fun h => nomatch h)⟩

/-- A finished SEND 0x00. -/
def finished (env : Env) : State :=
  { launched env [] with
    result := .ack
    trace := [.accept 0x200#10, .access 0x000#12 (some 0x7E#8), .access 0xC00#12 none, .access 0x800#12 none,
      .access 0x100#12 (some 0x01#8), .access 0xC01#12 none, .access 0x000#12 (some 0x3C#8), .result .ack] }

theorem finished_inv (env : Env) : (finished env).Inv :=
  { launched_inv env [] with
    noResult := fun h => h.elim (fun h => absurd rfl h) (fun h => Bool.noConfusion h) }

theorem finished_callOk (env : Env) : CallOk (finished env) :=
  ⟨(fun h => nomatch h), fun _ _ =>
    ⟨rfl, rfl, rfl, rfl, rfl, (by decide : 0 ≤ 2), (by decide : 1 ≤ (2 + 1) * 255), (fun h => nomatch h), rfl⟩⟩

theorem midCall_shapeOk (env : Env) : ShapeOk (midCall env) := by
  refine ⟨fun _ => ?_, (fun h => nomatch h)⟩
  have h : (midCall env).params.windowMax - (midCall env).window = 0 := Nat.sub_self 255
  show _ = pollsSoFar (midCall env) ((midCall env).params.windowMax - (midCall env).window)
  rw [h]; rfl

theorem finished_shapeOk (env : Env) : ShapeOk { finished env with window := 255 } := by
  refine ⟨(fun h => nomatch h), fun _ _ => ?_⟩
  have h : (finished env).params.windowMax - 255 = 0 := Nat.sub_self 255
  show _ = pollsSoFar { finished env with window := 255 } ((finished env).params.windowMax - 255 + 1) ++ _
  rw [h]; rfl

/-- ReservedWordsAreRejectedByName, at the ends of the range of each clause. -/
theorem test_witness_reserved_words :
    decode (.command 0x000#10) = .error .reservedCommand ∧ decode (.command 0x0FF#10) = .error .reservedCommand ∧
    decode (.result 0x001#10) = .error .unproducedResult ∧ decode (.result 0x3FF#10) = .error .unproducedResult ∧
    decode (.request 0xD00#12) = .error .unissuedRequest ∧ decode (.request 0xFFF#12) = .error .unissuedRequest ∧
    decode (.request 0x200#12) = .error .unissuedRequest ∧ decode (.request 0x7FF#12) = .error .unissuedRequest ∧
    decode (.request 0x001#12) = .error .unissuedRequest ∧ decode (.request 0x1FF#12) = .error .unissuedRequest ∧
    decode (.request 0x901#12) = .error .unissuedRequest ∧ decode (.request 0x9FF#12) = .error .unissuedRequest ∧
    decode (.request 0xA02#12) = .error .unissuedRequest ∧ decode (.request 0xAFF#12) = .error .unissuedRequest ∧
    decode (.request 0xB01#12) = .error .unissuedRequest ∧ decode (.request 0xBFF#12) = .error .unissuedRequest ∧
    decode (.request 0xC02#12) = .error .unissuedRequest ∧
    decode (.phase 17#5) = .error .reservedPhase ∧ decode (.phase 31#5) = .error .reservedPhase := by decide

/-- DecoderFollowsTheOpcodeTable, CommandWordsReachOnlyTheCallerLevel. -/
theorem test_witness_rows :
    rowsOf (.request 0x842#12) = ["WR_DATA"] ∧ rowsOf (.request 0xD00#12) = [] ∧
    (∃ i, decode (.command 0x100#10) = .ok i) ∧ (∃ i, decode (.command 0x3FF#10) = .ok i) := by
  refine ⟨by decide, by decide, ⟨_, rfl⟩, ⟨_, rfl⟩⟩

/-- StepRunsTheDecodedInstruction and the three clauses of StepFollowsPhaseOrIssuesTheNextCommand. -/
theorem test_witness_step :
    (State.reset.powerOn = false ∧ decode (fetchWord State.reset) = .ok .idle) ∧
    (let s := launched .bare [0x2FF#10]
     s.powerOn = false ∧ s.port = none ∧ s.phase = .idle ∧ s.program = [0x2FF#10] ∧
       decode (.command 0x2FF#10) = .ok (.send 0xFF#8)) ∧
    (let s := midCall .bare
     s.powerOn = false ∧ s.port = none ∧ s.phase ≠ .idle) ∧
    (State.reset.powerOn = false ∧ State.reset.port = none ∧ State.reset.phase = .idle ∧
      State.reset.program = []) := by
  refine ⟨⟨rfl, rfl⟩, ⟨rfl, rfl, rfl, rfl, rfl⟩, ⟨rfl, rfl, by decide⟩, rfl, rfl, rfl, rfl⟩

/-- PlacedWordIsFetchedNext, a word of each format. -/
theorem test_witness_placed :
    (tableWordOf 16 0x3FF = some (.command 0x3FF#10) ∧ decode (.command 0x3FF#10) = .ok (.receive 0xFF#8)) ∧
    (tableWordOf 16 0 = some (.request 0#12) ∧ decode (.request 0#12) = .ok .rdData) ∧
    (tableWordOf 8 0 = some (.phase 0#5) ∧ decode (.phase 0#5) = .ok .idle) ∧
    (tableWordOf 8 16 = some (.phase 16#5) ∧ decode (.phase 16#5) = .ok .timedout) ∧
    (tableWordOf 10 0 = some (.result 0#10) ∧ decode (.result 0#10) = .ok .resNone) := by decide

/-- ReservedCommandIsRefused, presented and in the caller's program. -/
theorem test_witness_reserved_command :
    refusal (step { midCall .bare with port := some (.command 0x0FF#10) }) = some .reservedCommand ∧
    refusal (step (launched .bare [0x000#10])) = some .reservedCommand := by decide

/-- CommandsOutOfPlaceAreRefused, clause by clause. -/
theorem test_witness_out_of_place :
    refusal (exec (.send 0x00#8) (midCall .bare)) = some .busy ∧
    refusal (step { midCall .bare with port := some (.command 0x100#10) }) = some .busy ∧
    refusal (exec (.receive 0xFF#8) State.reset) = some .notInitialised ∧
    refusal (exec (.init 0x00#8) (launched .bare [])) = some .initRepeated := by decide

/-- PowerOnResetsOnlyBeforeTheFirstCommand, clause by clause. -/
theorem test_witness_power_on :
    (let s : State := { State.reset with powerOn := true }
     s.powerOn = true ∧ s.phase = .idle ∧ s.trace.any Event.isAccept = false) ∧
    refusal (step { midCall .bare with powerOn := true }) = some .resetWhileBusy ∧
    refusal (step { finished .bare with powerOn := true }) = some .resetAfterCommand := by
  refine ⟨⟨rfl, rfl, rfl⟩, by decide, by decide⟩

/-- SendIsAccepted, ReceiveIsAccepted, and InitRunsToTheLaunchState. -/
theorem test_witness_acceptance :
    ((launched .bare []).phase = .idle ∧ (launched .bare []).initDone = true) ∧
    (let s : State := { State.reset with program := [0x1FF#10] }
     s.phase = .idle ∧ s.initDone = false ∧ s.port = none ∧ s.powerOn = false ∧
       s.program = (0x100#10 + (0xFF#8).setWidth 10) :: []) := by
  refine ⟨⟨rfl, rfl⟩, rfl, rfl, rfl, rfl, by decide⟩

/-- The environments ReadingDataClearsDone and the enable statements speak of. -/
theorem test_witness_environments :
    State.reset.env = .bare ∧ (Env.contract []).isContract = true ∧ (midCall (.contract [])).env ≠ .bare := by
  refine ⟨rfl, rfl, by decide⟩

/-- LoadStartsTheExchangeOfTx, EscDis1MarksAndDisables, EscEn2ReloadsTheRetryState (last permitted reset), and
EachPhaseMakesItsOneAccess. -/
theorem test_witness_call_registers :
    (inCall .load 255 0 .bare).callWritten = true ∧ (inCall .escDis1 0 1 .bare).callWritten = true ∧
    (inCall .escEn2 0 1 .bare).callWritten = true ∧
    (inCall .escEn2 0 1 .bare).esc < (inCall .escEn2 0 1 .bare).params.escalationMax := by decide

/-- PollingFollowsItsRule, every clause at its boundary; with the flag set nothing need have been written. -/
theorem test_witness_polling :
    (State.reset.callWritten = false ∧
      (({ State.reset with env := answering 0x01#8 } : State).answer .stat).getLsbD 0 = true) ∧
    (∀ a, (inCall .polling 1 2 (answering a)).callWritten = true ∧ 1 ≤ (inCall .polling 1 2 (answering a)).window) ∧
    ((inCall .polling 1 2 (answering 0x01#8)).answer .stat).getLsbD 0 = true ∧
    ((inCall .polling 2 0 (answering 0xFE#8)).answer .stat).getLsbD 0 = false ∧
    (inCall .polling 1 1 (answering 0x00#8)).esc < (inCall .polling 1 1 (answering 0x00#8)).params.escalationMax ∧
    (inCall .polling 1 2 (answering 0x00#8)).params.escalationMax ≤ (inCall .polling 1 2 (answering 0x00#8)).esc := by
  refine ⟨⟨rfl, by decide⟩, fun _ => ⟨rfl, Nat.le_refl 1⟩, by decide, by decide, by decide, by decide⟩

/-- CountersStayInRangeWhereTheSpecIsSilent and TimeoutIsRaisedExactlyWhenTheBudgetIsSpent. -/
theorem test_witness_counters :
    ((inCall .polling 0 2 .neverReady).callWritten = true ∧ (inCall .polling 0 2 .neverReady).window = 0) ∧
    ((inCall .escEn2 0 2 .bare).callWritten = true ∧
      (inCall .escEn2 0 2 .bare).params.escalationMax ≤ (inCall .escEn2 0 2 .bare).esc) ∧
    (after (·.phase) (exec .polling (inCall .polling 1 2 .neverReady)) = some .timedout ∧
      (inCall .polling 1 2 .neverReady).phase ≠ .timedout) := by decide

/-- CollectDeliversTheResult for each variant, and UnwrittenCallRegistersFault. -/
theorem test_witness_collect :
    (inCall .collect 255 0 .bare).variant = .send ∧
    ({ inCall .collect 255 0 .bare with variant := .receive } : State).callWritten = true ∧
    (State.reset.callWritten = false ∧ Instr.escEn2 ∈ [Instr.load, .escDis1, .escEn2, .collect]) ∧
    (({ State.reset with env := answering 0xFE#8 } : State).answer .stat).getLsbD 0 = false := by
  decide

/-- ResetEscalatorRunsItsFixedSequence. -/
theorem test_witness_escalator :
    let s := sending .escDis1 0 1 0x01#8 0x00#8 .bare
    s.Inv ∧ s.phase = .escDis1 ∧ s.port = none ∧ s.powerOn = false :=
  ⟨escDis1_inv .bare, rfl, rfl, rfl⟩

/-- EnvironmentsAnswerAsSpecified, clause by clause. -/
theorem test_witness_peripheral :
    ((contractState 0x7E#8 false true true).inflight = true ∧ (contractState 0x7E#8 false true true).en = true) ∧
    (contractState 0x7E#8 false true false).inflight = false ∧
    (contractState 0x7E#8 false false true).en = false ∧
    (contractState 0x7E#8 false true true).env.isContract = true ∧
    (inCall .polling 1 2 (.alwaysReady 0x3C#8)).env = .alwaysReady 0x3C#8 ∧
    (inCall .polling 1 2 .neverReady).env = .neverReady ∧
    (∃ t, exec (.wrData 0x42#8) (contractState 0x7E#8 false true false) = .next t) ∧
    (∃ t, exec (.wrData 0x42#8) (contractState 0x7E#8 false true true) = .next t) := by
  refine ⟨⟨rfl, ?_⟩, rfl, ?_, rfl, rfl, rfl, ⟨_, rfl⟩, ⟨_, rfl⟩⟩ <;>
    (simp only [State.en, contractState, holding_loc]; decide)

/-- EnvironmentsAnswerAsSpecified, `ReadyAtPoll(2, d)`: the first poll and the second (R69). -/
theorem test_witness_ready_at_poll :
    (inCall .polling 1 2 (.readyAtPoll 2 0x3C#8)).answer .stat = 0x00#8 ∧
    ({ inCall .polling 1 2 (.readyAtPoll 2 0x3C#8) with polls := 1 } : State).answer .stat = 0x01#8 := by decide

/-- PhaseMovesAsTheTableSays, RegistersAreWrittenOnlyWhereTheRulesSay, OnlyInitCfgWritesTheConfiguration. -/
theorem test_witness_phase_moves :
    let s := midCall .neverReady
    (∀ w, s.port = some w → ∃ c, w = TableWord.command c) ∧ (∃ t, step s = .next t) ∧ s.phase ≠ .initCfg ∧
      (∃ t, exec (microOp s.phase) s = .next t) :=
  ⟨(fun _ h => nomatch h), ⟨_, rfl⟩, by decide, ⟨_, rfl⟩⟩

/-- ResultStandsUntilTheNextCommand. -/
theorem test_witness_result_stands :
    let s := finished .bare
    s.phase = .idle ∧ s.port = none ∧ s.powerOn = false ∧ s.program = [] ∧ ∃ t, step s = .next t :=
  ⟨rfl, rfl, rfl, rfl, _, rfl⟩

/-- InitDoneIsNeverClearedByAStep: each clause. -/
theorem test_witness_init_done :
    (∃ t, step (launched .bare []) = .next t ∧ (launched .bare []).initDone = true) ∧
    (∃ t, step { State.reset with phase := .initEn } = .next t ∧ t.initDone = true) :=
  ⟨⟨_, rfl, rfl⟩, ⟨_, rfl, rfl⟩⟩

/-- OnlySetSsMovesTheLine, initialised and in INIT_EN. -/
theorem test_witness_line :
    (let s := midCall .neverReady
     (∃ t, step s = .next t) ∧ s.powerOn = false ∧ s.initDone = true ∧ s.phase ≠ .initSs ∧ s.phase ≠ .select ∧
       s.phase ≠ .succeeded ∧ s.phase ≠ .timedout ∧ ∀ w, s.port = some w → ∃ c, w = TableWord.command c) ∧
    (let s : State := { State.reset with phase := .initEn }
     (∃ t, step s = .next t) ∧ s.powerOn = false ∧ s.phase = .initEn ∧
       ∀ w, s.port = some w → ∃ c, w = TableWord.command c) :=
  ⟨⟨⟨_, rfl⟩, rfl, rfl, by decide, by decide, by decide, by decide, (fun _ h => nomatch h)⟩,
    ⟨_, rfl⟩, rfl, rfl, (fun _ h => nomatch h)⟩

/-- StepKeepsTheInvariant, RunningCallsNeverStop, CountersFitTheirWidths, RunningCallReturnsToIdle. -/
theorem test_witness_invariant :
    (let s := launched .bare [0x300#10]
     s.Inv ∧ ∃ t, step s = .next t) ∧
    (let s := sending .polling 1 2 0x01#8 0x00#8 .neverReady
     s.Inv ∧ s.port = none ∧ s.powerOn = false ∧ s.phase ≠ .idle ∧ ∃ t, step s = .next t) :=
  ⟨⟨launched_inv _ _, _, rfl⟩, polling_inv _ (by decide), rfl, rfl, by decide, _, rfl⟩

/-- StepKeepsTheCallTrace, in a call and after one. -/
theorem test_witness_call_trace :
    ((midCall .bare).Inv ∧ CallOk (midCall .bare) ∧ (midCall .bare).phase.transferring = true) ∧
    ((finished .bare).Inv ∧ CallOk (finished .bare) ∧ (finished .bare).result ≠ .none ∧
      ∃ t, step (finished .bare) = .next t) :=
  ⟨⟨midCall_inv _, midCall_callOk _, rfl⟩, finished_inv _, finished_callOk _, by decide, _, rfl⟩

/-- StepKeepsTheShapeOfATransfer, in a call and after one. -/
theorem test_witness_shape :
    ((midCall .neverReady).Inv ∧ ShapeOk (midCall .neverReady) ∧ ∃ t, step (midCall .neverReady) = .next t) ∧
    (let s : State := { finished .bare with window := 255 }
     s.Inv ∧ ShapeOk s ∧ ∃ t, step s = .next t) :=
  ⟨⟨midCall_inv _, midCall_shapeOk _, _, rfl⟩,
    { finished_inv .bare with range := ⟨(by decide : 255 ≤ 255), (by decide : 0 ≤ 2)⟩ }, finished_shapeOk _, _, rfl⟩

/-- SendAndReceiveRunOneAlgorithm, the acceptances. -/
theorem test_witness_twin_acceptance :
    let s := launched .bare []
    s.phase = .idle ∧ s.initDone = true ∧ s.port = none ∧ s.powerOn = false := ⟨rfl, rfl, rfl, rfl⟩

/-- SendAndReceiveRunOneAlgorithm, a step in the middle. -/
theorem test_witness_twins :
    let s := midCall .neverReady
    let t : State :=
      { s with
        variant := .receive
        tx := 0xFF#8
        out := 0xFF#8
        trace := [.accept 0x300#10, .access 0x000#12 (some 0x7E#8), .access 0xC00#12 none, .access 0x8FF#12 none] }
    Twins [.accept 0x200#10] [.accept 0x300#10] s t ∧ s.phase.transferring = true ∧ s.callWritten = true ∧
      s.port = none ∧ s.powerOn = false ∧ ∃ s', step s = .next s' :=
  ⟨⟨rfl, rfl, rfl, _, _, rfl, rfl, .cons (.same _) (.cons (.same _) (.cons .load .nil))⟩, rfl, rfl, rfl, rfl, _, rfl⟩

/-- SuccessWithoutResetMeansDelivery: launched, and polling with the exchange in flight. -/
theorem test_witness_delivery :
    (let s := launched (.contract []) [0x200#10]
     s.Inv ∧ CallOk s ∧ 1 ≤ s.params.escalationMax ∧ DeliveryOk s ∧ ∃ t, step s = .next t) ∧
    (let s := midCall (.contract [some 0x3C#8])
     s.Inv ∧ CallOk s ∧ 1 ≤ s.params.escalationMax ∧ DeliveryOk s) := by
  refine ⟨⟨launched_inv _ _, ⟨(fun h => nomatch h), fun _ h => absurd rfl h⟩, (by decide : 1 ≤ 2), fun _ => rfl, _, rfl⟩,
    midCall_inv _, midCall_callOk _, (by decide : 1 ≤ 2), fun _ => ?_⟩
  show if 0 = 0 then (0x00#8 = 0x00#8 ∧ true = !(midCall (.contract [some 0x3C#8])).done) else _
  have h : (midCall (.contract [some 0x3C#8])).done = false := by
    show answerDone ((sending .polling 255 0 0x01#8 0x00#8 (.contract [some 0x3C#8])).loc .stat) = false
    simp only [sending, holding_loc]; decide
  simp [h]

/-- AlwaysReadyTransfersSucceed, NeverReadyTransfersTimeOut, StalledReceiveRecoversAfterOneReset. -/
theorem test_witness_whole_calls :
    (let s := launched (.alwaysReady 0xFF#8) [0x200#10 + (0xFF#8).setWidth 10]
     s.phase = .idle ∧ s.initDone = true ∧ s.port = none ∧ s.powerOn = false ∧ s.env = .alwaysReady 0xFF#8 ∧
       1 ≤ s.params.windowMax ∧ s.program = (0x200#10 + (0xFF#8).setWidth 10) :: []) ∧
    (launched (.alwaysReady 0x00#8) [0x300#10]).program = 0x300#10 :: [] ∧
    (let s := launched .neverReady [0x200#10 + (0x55#8).setWidth 10]
     s.Inv ∧ s.phase = .idle ∧ s.initDone = true ∧ s.port = none ∧ s.powerOn = false ∧ s.env = .neverReady ∧
       s.program = (0x200#10 + (0x55#8).setWidth 10) :: []) ∧
    (let s := launched (stallThenRecover Config.defaultParams 0x3C#8) [0x300#10]
     s.Inv ∧ s.phase = .idle ∧ s.initDone = true ∧ s.port = none ∧ s.powerOn = false ∧
       s.env = stallThenRecover s.params 0x3C#8 ∧ 1 ≤ s.params.escalationMax ∧ s.program = 0x300#10 :: []) :=
  ⟨⟨rfl, rfl, rfl, rfl, rfl, (by decide : 1 ≤ 255), rfl⟩, rfl,
    ⟨launched_inv _ _, rfl, rfl, rfl, rfl, rfl, rfl⟩,
    launched_inv _ _, rfl, rfl, rfl, rfl, rfl, (by decide : 1 ≤ 2), rfl⟩

end Sys2Proof.Machine
end

section
/-! Proofs of the scope family: the derived widths of R7, and what the spec gives for reset (R6, R37, R200). -/

namespace Sys2Proof.Config

/-- `ceilLog2` is large enough to be the ceiling R7 writes: a power of two with that exponent reaches `n`. -/
theorem le_two_pow_ceilLog2 (n : Nat) : n ≤ 2 ^ ceilLog2 n := by
  unfold ceilLog2
  split
  case isTrue small => simpa using small
  case isFalse large =>
    have below : n - 1 < 2 ^ ((n - 1).log2 + 1) := Nat.lt_log2_self
    omega

theorem Params.windowMax_lt_two_pow_windowBits (p : Params) : p.windowMax < 2 ^ p.windowBits :=
  le_two_pow_ceilLog2 (p.windowMax + 1)

theorem Params.escalationMax_lt_two_pow_escBits (p : Params) : p.escalationMax < 2 ^ p.escBits :=
  calc
    p.escalationMax < 2 ^ ceilLog2 (p.escalationMax + 1) := le_two_pow_ceilLog2 (p.escalationMax + 1)
    _ ≤ 2 ^ p.escBits := Nat.pow_le_pow_right Nat.two_pos (Nat.le_max_right ..)

end Sys2Proof.Config

namespace Sys2Proof.Machine

/-- Settles O54: the invariant bounds each counter by its parameter, and the width derived for the register holds
that parameter. -/
theorem countersFitTheirWidths : Obligations.CountersFitTheirWidths := by
  intro s inv
  obtain ⟨windowLe, escLe⟩ := inv.range
  exact ⟨windowLe.trans_lt s.params.windowMax_lt_two_pow_windowBits,
    escLe.trans_lt s.params.escalationMax_lt_two_pow_escBits⟩

/-- Settles O12: every clause is a field of `State.reset` or of the default parameters, but for the word of NONE,
which is evaluated. -/
theorem resetIsTheSpecsReset : Obligations.ResetIsTheSpecsReset := by
  have noneWord : Result.none.word = 0x000#10 := by decide
  exact ⟨rfl, rfl, rfl, noneWord, rfl, rfl, rfl, rfl, rfl, rfl⟩

end Sys2Proof.Machine
end

section
/-! Rules for the state family, each said once: what an instruction leaves where it answers a next state, what can
have happened in a step, and how a word is fetched and placed. -/

namespace Sys2Proof.Machine

/-! ### Shared operations -/

@[simp] theorem acceptCommand_eq (c : BitVec 10) (s : State) :
    acceptCommand c s = (s.emit (.accept c)).setResult .none := rfl

@[simp] theorem postResult_eq (r : Result) (s : State) : postResult r s = (s.setResult r).emit (.result r) := rfl

@[simp] theorem returnToCaller_eq (s : State) : returnToCaller s = s.goto .idle := rfl

theorem readingCallRegisters_of_written {s : State} (written : s.callWritten = true) (u : State) :
    readingCallRegisters s u = .next u :=
  readingCallRegisters_next.mpr ⟨written, rfl⟩

theorem readingCallRegisters_of_unwritten {s : State} (unwritten : s.callWritten = false) (u : State) :
    readingCallRegisters s u = .fault .callRegisterUnwritten := by
  simp [readingCallRegisters, unwritten]

/-- A poll changes the access's own effects, `window`, `phase` and the model's counter of draws only (R124). -/
theorem poll_frame (s : State) :
    ∃ (w : Nat) (p : Phase) (d : Nat), poll s = { memRead .stat s with window := w, phase := p, draws := d } := by
  rcases poll_cases s with ⟨-, flagSet⟩ | ⟨-, flagClear⟩
  · exact ⟨_, _, _, flagSet⟩
  · obtain ⟨w, p, d, counted, -⟩ := countPoll_frame (memRead .stat s)
    exact ⟨w, p, d, flagClear.trans counted⟩

/-- The next phase of a poll is one of the four R124 names. -/
theorem poll_phase_mem (s : State) : (poll s).phase ∈ successors .polling := by
  rcases poll_cases s with ⟨-, flagSet⟩ | ⟨-, flagClear⟩
  · simp [flagSet, successors]
  · obtain ⟨w, p, d, counted, -, waits, exhausted⟩ := countPoll_frame (memRead .stat s)
    rw [flagClear, counted]
    rcases Nat.eq_zero_or_pos w with zero | pos
    · simp only [exhausted zero]; split <;> simp [successors]
    · simp [waits pos, successors]

theorem poll_keepsCall (s : State) : KeepsCall s (poll s) := by
  obtain ⟨w, p, d, h⟩ := poll_frame s
  rw [h]; constructor <;> simp

@[simp] theorem poll_variant (s : State) : (poll s).variant = s.variant := (poll_keepsCall s).variant
@[simp] theorem poll_tx (s : State) : (poll s).tx = s.tx := (poll_keepsCall s).tx
@[simp] theorem poll_result (s : State) : (poll s).result = s.result := (poll_keepsCall s).result
@[simp] theorem poll_initDone (s : State) : (poll s).initDone = s.initDone := (poll_keepsCall s).initDone
@[simp] theorem poll_callWritten (s : State) : (poll s).callWritten = s.callWritten := (poll_keepsCall s).callWritten
@[simp] theorem poll_params (s : State) : (poll s).params = s.params := (poll_keepsCall s).params
@[simp] theorem poll_port (s : State) : (poll s).port = s.port := (poll_keepsCall s).port

@[simp] theorem poll_esc (s : State) : (poll s).esc = s.esc := by
  obtain ⟨w, p, d, h⟩ := poll_frame s
  simp [h]

@[simp] theorem poll_mem (s : State) : (poll s).mem = s.mem := by
  obtain ⟨w, p, d, h⟩ := poll_frame s
  simp [h]

@[simp] theorem poll_loc (s : State) (l : Loc) : (poll s).loc l = s.loc l := State.loc_congr (poll_mem s) l

/-! ### What an instruction leaves -/

/-- The state an instruction leaves where it answers one (`exec_next`): the instructions without their refusals and
faults. -/
def effect : Instr → State → State
  | .init d, s => (acceptCommand (commandWord 0b01#2 d) s).goto .initCfg
  | .send d, s => acceptTransfer (commandWord 0b10#2 d) .send d s
  | .receive d, s => acceptTransfer (commandWord 0b11#2 d) .receive s.params.dummyFill s
  | .resNone, s => s.setResult .none
  | .resAck, s => postResult .ack s
  | .resByte v, s => postResult (.byte v) s
  | .resTimeout, s => postResult .timeout s
  | .rdData, s => memRead .data s
  | .wrData b, s => memWrite .data b s
  | .rdStat, s => memRead .stat s
  | .clrStat, s => memWrite .stat 0x00#8 s
  | .wrEn e, s => memWrite .ctrl (zext8 e) s
  | .wrCfg, s => memWrite .cfg 0x00#8 s
  | .setSs l, s => memWrite .ssport (zext8 l) s
  | .idle, s => s
  | .initCfg, s => (memWrite .cfg 0x00#8 s).goto .initSs
  | .initSs, s => (memWrite .ssport 0x01#8 s).goto .initEn
  | .initEn, s => returnToCaller (memWrite .ctrl 0x01#8 s).setInitDone
  | .drain, s => (memRead .data s).goto .select
  | .select, s => (memWrite .ssport 0x00#8 s).goto .load
  | .load, s => (memWrite .data s.tx s).goto .polling
  | .polling, s => poll s
  | .escDis1, s => (memWrite .ctrl 0x00#8 (s.emit (.resetBegin (s.esc + 1)))).goto .escEn1
  | .escEn1, s => (memWrite .ctrl 0x01#8 s).goto .escDrain
  | .escDrain, s => (memRead .data s).goto .escClr
  | .escClr, s => (memWrite .stat 0x00#8 s).goto .escDis2
  | .escDis2, s => (memWrite .ctrl 0x00#8 s).goto .escEn2
  | .escEn2, s => (reloadRetry (memWrite .ctrl 0x01#8 s)).goto .polling
  | .succeeded, s => (memWrite .ssport 0x01#8 s).goto .collect
  | .collect, s => returnToCaller (postResult (collected s) (memRead .data s))
  | .timedout, s => returnToCaller (postResult .timeout (memWrite .ssport 0x01#8 s))

theorem exec_next {i : Instr} {s t : State} (h : exec i s = .next t) : t = effect i s := by
  cases i with
  | init d =>
    obtain ⟨-, -, left⟩ := execInit_next h
    exact left
  | send d =>
    obtain ⟨-, -, left⟩ := execSend_next h
    exact left
  | receive d =>
    obtain ⟨-, -, left⟩ := execReceive_next h
    exact left
  | load | escDis1 | escEn2 | collect => exact (readingCallRegisters_next.mp h).2
  | polling => exact (execPolling_next.mp h).2
  | _ => exact (Host.Outcome.next.inj h).symm

/-- A word that decodes to a host command is accepted in IDLE only, INIT before initialisation and a transfer after it
(R100 to R107). -/
theorem command_next {w : BitVec 10} {i : Instr} {s t : State} (decoded : decodeCommand w = .ok i)
    (h : exec i s = .next t) :
    s.phase = .idle ∧
      ((s.initDone = false ∧ ∃ c, t = (acceptCommand c s).goto .initCfg) ∨
       (s.initDone = true ∧ ∃ c v b, t = acceptTransfer c v b s)) := by
  rcases decodeCommand_cases decoded with rfl | rfl | rfl
  · obtain ⟨idle, notDone, rfl⟩ := execInit_next h
    exact ⟨idle, .inl ⟨notDone, _, rfl⟩⟩
  · obtain ⟨idle, done, rfl⟩ := execSend_next h
    exact ⟨idle, .inr ⟨done, _, _, _, rfl⟩⟩
  · obtain ⟨idle, done, rfl⟩ := execReceive_next h
    exact ⟨idle, .inr ⟨done, _, _, _, rfl⟩⟩

/-- INIT_EN is the one instruction that writes `init_done`, and it sets it (R27). -/
theorem effect_initDone (i : Instr) (s : State) :
    (effect i s).initDone = (s.initDone || decide (i = .initEn)) := by
  cases i <;> simp [effect]

theorem zext8_getLsbD_zero (b : Bool) : (zext8 b).getLsbD 0 = b := by cases b <;> rfl

/-! ### The registers a micro-operation keeps -/

section
variable (p : Phase) (s : State)

@[simp] theorem effect_microOp_variant : (effect (microOp p) s).variant = s.variant := by
  cases p <;> simp [microOp, effect]

@[simp] theorem effect_microOp_tx : (effect (microOp p) s).tx = s.tx := by
  cases p <;> simp [microOp, effect]

@[simp] theorem effect_microOp_params : (effect (microOp p) s).params = s.params := by
  cases p <;> simp [microOp, effect]

@[simp] theorem effect_microOp_callWritten : (effect (microOp p) s).callWritten = s.callWritten := by
  cases p <;> simp [microOp, effect]

@[simp] theorem effect_microOp_port : (effect (microOp p) s).port = s.port := by
  cases p <;> simp [microOp, effect]

@[simp] theorem effect_microOp_initDone :
    (effect (microOp p) s).initDone = (s.initDone || decide (p = .initEn)) := by
  rw [effect_initDone]; cases p <;> rfl

theorem effect_microOp_window (notPolling : p ≠ .polling) (notEscEn2 : p ≠ .escEn2) :
    (effect (microOp p) s).window = s.window := by
  cases p <;> simp [microOp, effect] at notPolling notEscEn2 ⊢

theorem effect_microOp_esc (notEscEn2 : p ≠ .escEn2) : (effect (microOp p) s).esc = s.esc := by
  cases p <;> simp [microOp, effect] at notEscEn2 ⊢

theorem effect_microOp_result (notCollect : p ≠ .collect) (notTimedout : p ≠ .timedout) :
    (effect (microOp p) s).result = s.result := by
  cases p <;> simp [microOp, effect] at notCollect notTimedout ⊢

/-- The successors of R120, micro-operation by micro-operation; IDLE alone stays where it is (R128). -/
theorem effect_microOp_phase (notIdle : p ≠ .idle) : (effect (microOp p) s).phase ∈ successors p := by
  cases p
  case idle => exact absurd rfl notIdle
  case polling => exact poll_phase_mem s
  all_goals simp [microOp, effect, successors]

/-! ### The locations a micro-operation writes -/

/-- CFG is written by INIT_CFG only (R103). -/
theorem effect_microOp_cfg :
    (effect (microOp p) s).loc .cfg = if p = .initCfg then s.params.cfgInit else s.loc .cfg := by
  cases p <;> simp [microOp, effect, memRead_loc, memWrite_loc]

/-- The level a micro-operation drives the slave-select line to, if it makes a SET_SS (R74). -/
def Phase.lineWrite : Phase → Option Bool
  | .select => some false
  | .initSs | .succeeded | .timedout => some true
  | _ => none

theorem Phase.lineWrite_eq_none {p : Phase} (notInitSs : p ≠ .initSs) (notSelect : p ≠ .select)
    (notSucceeded : p ≠ .succeeded) (notTimedout : p ≠ .timedout) : p.lineWrite = none := by
  revert notInitSs notSelect notSucceeded notTimedout
  cases p <;> decide

theorem effect_microOp_ssport : (effect (microOp p) s).loc .ssport = p.lineWrite.elim (s.loc .ssport) zext8 := by
  cases p <;> simp [microOp, effect, memRead_loc, memWrite_loc, Phase.lineWrite, zext8]

theorem effect_microOp_ssN : (effect (microOp p) s).ssN = p.lineWrite.getD s.ssN := by
  unfold State.ssN
  rw [effect_microOp_ssport]
  cases p.lineWrite with
  | none => rfl
  | some level => exact zext8_getLsbD_zero level

/-- What a micro-operation switches CTRL.EN to, if it makes a WR_EN (R74). -/
def Phase.enableWrite : Phase → Option Bool
  | .escDis1 | .escDis2 => some false
  | .initEn | .escEn1 | .escEn2 => some true
  | _ => none

theorem effect_microOp_ctrl : (effect (microOp p) s).loc .ctrl = p.enableWrite.elim (s.loc .ctrl) zext8 := by
  cases p <;> simp [microOp, effect, memRead_loc, memWrite_loc, Phase.enableWrite, zext8]

theorem effect_microOp_en : (effect (microOp p) s).en = p.enableWrite.getD s.en := by
  unfold State.en
  rw [effect_microOp_ctrl]
  cases p.enableWrite with
  | none => rfl
  | some on => exact zext8_getLsbD_zero on

theorem wf_effect_microOp (h : Memory.wf s.mem = true) : Memory.wf (effect (microOp p) s).mem = true := by
  cases p with
  | idle => exact h
  | polling => exact (poll_mem s).symm ▸ h
  | drain | escDrain | collect => exact wf_memRead .data h
  | _ => exact wf_memWrite _ _ h

end

/-! ### The peripheral's move -/

@[simp] theorem peripheralMove_cfg (s : State) : (peripheralMove s).loc .cfg = s.loc .cfg :=
  peripheralMove_loc s (l := .cfg) (by decide) (by decide) nofun

@[simp] theorem peripheralMove_en (s : State) : (peripheralMove s).en = s.en := by
  unfold State.en
  rw [peripheralMove_loc s (l := .ctrl) (by decide) (by decide) nofun]

theorem peripheralMove_ssport {s : State} (driven : lineUndriven s = false) :
    (peripheralMove s).loc .ssport = s.loc .ssport :=
  peripheralMove_loc s (l := .ssport) (by decide) (by decide) (fun _ => driven)

/-! ### What can have happened in a step -/

/-- What SPIM can do in one step, before the peripheral's move, where nothing but a command is presented (R206):
the power-on event, the acceptance of a command in IDLE, or the micro-operation of `phase`. `program` is what the
caller has still to issue after it. -/
inductive SpimMove (s : State) : State → Prop
  | powerOn {t : State} (event : s.powerOn = true) (accepted : powerOnReset s = .next t) : SpimMove s t
  | init (c : BitVec 10) (program : List (BitVec 10)) (idle : s.phase = .idle) (notDone : s.initDone = false) :
      SpimMove s ((acceptCommand c { s with port := none, program := program }).goto .initCfg)
  | transfer (c : BitVec 10) (v : Variant) (b : Byte) (program : List (BitVec 10)) (idle : s.phase = .idle)
      (done : s.initDone = true) : SpimMove s (acceptTransfer c v b { s with port := none, program := program })
  | microOp : SpimMove s (effect (microOp s.phase) s)

theorem step_spimMove {s t : State} (noBench : ∀ w, s.port = some w → ∃ c, w = .command c) (h : step s = .next t) :
    ∃ u, SpimMove s u ∧ t = peripheralMove u := by
  rcases step_cases h with ⟨event, u, accepted, rfl⟩ | ⟨-, i, u, decoded, ran, rfl⟩
  · exact ⟨u, .powerOn event accepted, rfl⟩
  refine ⟨u, ?_, rfl⟩
  rcases fetch_cases noBench with ⟨c, program, fetched, taken⟩ | ⟨-, fetched, taken, -⟩
  · rw [fetched] at decoded
    rw [taken] at ran
    obtain ⟨idle, ⟨notDone, c', rfl⟩ | ⟨done, c', v, b, rfl⟩⟩ := command_next decoded ran
    · exact .init c' program idle notDone
    · exact .transfer c' v b program idle done
  · rw [fetched, decode_phaseCode] at decoded
    obtain rfl := Except.ok.inj decoded
    rw [taken] at ran
    obtain rfl := exec_next ran
    exact .microOp

/-! ### Fetching and placing a word -/

section
variable {s : State}

theorem step_of_decode {i : Instr} (noEvent : s.powerOn = false) (decoded : decode (fetchWord s) = .ok i) :
    step s = settle (exec i (consumeWord s)) := by
  simp [step, noEvent, decoded]

theorem fetchWord_of_port {t : TableWord} (presented : s.port = some t) : fetchWord s = t := by
  simp only [fetchWord, presented]

theorem fetchWord_of_command {c : BitVec 10} {cs : List (BitVec 10)} (noPort : s.port = none)
    (idle : s.phase = .idle) (waiting : s.program = c :: cs) : fetchWord s = .command c := by
  simp only [fetchWord, noPort, idle, waiting]

theorem consumeWord_of_command {c : BitVec 10} {cs : List (BitVec 10)} (noPort : s.port = none)
    (idle : s.phase = .idle) (waiting : s.program = c :: cs) : consumeWord s = { s with program := cs } := by
  simp only [consumeWord, noPort, idle, waiting]

/-- With nothing presented and no command to issue, `phase` selects its micro-operation and no word is taken. -/
theorem fetch_of_noCommand (noPort : s.port = none) (noCommand : s.phase ≠ .idle ∨ s.program = []) :
    fetchWord s = .phase (phaseCode s.phase) ∧ consumeWord s = s := by
  simp only [fetchWord, consumeWord, noPort]
  split
  · next idle waiting => exact absurd noCommand (by simp [idle, waiting])
  · exact ⟨rfl, rfl⟩

end

theorem step_of_noCommand {s : State} (noEvent : s.powerOn = false) (noPort : s.port = none)
    (noCommand : s.phase ≠ .idle ∨ s.program = []) : step s = settle (exec (microOp s.phase) s) := by
  obtain ⟨fetched, taken⟩ := fetch_of_noCommand noPort noCommand
  have decoded : decode (fetchWord s) = .ok (microOp s.phase) := by rw [fetched, decode_phaseCode]
  rw [step_of_decode noEvent decoded, taken]

/-- `consumeWord` takes a word from the port or from the caller's program and leaves SPIM's registers alone. -/
@[simp] theorem consumeWord_initDone (s : State) : (consumeWord s).initDone = s.initDone := by
  unfold consumeWord
  split
  · rfl
  · split <;> rfl

/-- The phase code 3 is the only word of INIT_EN (R89). -/
theorem eq_of_decode_initEn {t : TableWord} (h : decode t = .ok .initEn) : t = .phase 3#5 := by
  cases t with
  | command w => rcases decodeCommand_cases h with h | h | h <;> cases h
  | result w =>
    simp only [decode, decodeResult] at h
    split at h <;> cases h
  | request w =>
    simp only [decode, decodeRequest] at h
    repeat' split at h
    all_goals cases h
  | phase w => revert h; revert w; decide

/-- A phase code that decodes is the code of a phase (R89, R90 (d)). -/
theorem phaseOfCode_of_decode {w : BitVec 5} {i : Instr} (decoded : decode (.phase w) = .ok i) :
    ∃ p, phaseOfCode w = some p ∧ phaseCode p = w := by
  have found : ∀ v : BitVec 5, decodes (.phase v) = true → (phaseOfCode v).isSome = true := by decide
  obtain ⟨p, isPhase⟩ := Option.isSome_iff_exists.mp (found w (by simp [decodes, decoded]))
  exact ⟨p, isPhase, by simpa using List.find?_some isPhase⟩

theorem placePhase_of_code {p : Phase} {w : BitVec 5} (isPhase : phaseOfCode w = some p) (s : State) :
    placePhase s w =
      { s with
        phase := p, port := none, powerOn := false, program := if p = .idle then [] else s.program,
        callWritten := true } := by
  simp only [placePhase, isPhase]

theorem placeWord_powerOn {t : TableWord} {i : Instr} (decoded : decode t = .ok i) (s : State) :
    (placeWord s t).powerOn = false := by
  cases t with
  | phase w =>
    obtain ⟨p, isPhase, -⟩ := phaseOfCode_of_decode decoded
    exact congrArg State.powerOn (placePhase_of_code isPhase s)
  | _ => rfl

theorem fetchWord_placeWord {t : TableWord} {i : Instr} (decoded : decode t = .ok i) (s : State) :
    fetchWord (placeWord s t) = t := by
  cases t with
  | command w => exact fetchWord_of_command (s := placeCommand s w) rfl rfl rfl
  | request | result => exact fetchWord_of_port (s := placeBench s _) rfl
  | phase w =>
    obtain ⟨p, isPhase, code⟩ := phaseOfCode_of_decode decoded
    subst code
    show fetchWord (placePhase s _) = _
    rw [placePhase_of_code isPhase]
    refine (fetch_of_noCommand rfl ?_).1
    by_cases idle : p = .idle
    · exact .inr (if_pos idle)
    · exact .inl idle

/-! ### The bytes an operation keeps -/

theorem keepsBytesExcept_of_mem_eq {s t : State} (h : t.mem = s.mem) (ls : List Loc) : KeepsBytesExcept ls s t :=
  fun a _ => by rw [h]

theorem keepsBytesExcept_setLoc (s : State) (l : Loc) (v : Byte) : KeepsBytesExcept [l] s (s.setLoc l v) :=
  fun _ other => Memory.read_write_other s.mem v (other l List.mem_cons_self)

theorem KeepsBytesExcept.mono {ls ls' : List Loc} {s t : State} (h : KeepsBytesExcept ls s t) (sub : ls ⊆ ls') :
    KeepsBytesExcept ls' s t :=
  fun a other => h a (fun l mem => other l (sub mem))

theorem KeepsBytesExcept.trans {ls : List Loc} {s t u : State} (h : KeepsBytesExcept ls s t)
    (h' : KeepsBytesExcept ls t u) : KeepsBytesExcept ls s u :=
  fun a other => (h' a other).trans (h a other)

theorem keepsBytesExcept_drawLocations (s : State) : KeepsBytesExcept [.data, .stat] s (drawLocations s) :=
  ((keepsBytesExcept_setLoc s .data _).mono (by decide)).trans
    ((keepsBytesExcept_setLoc (s.setLoc .data _) .stat _).mono (by decide))

/-- A CTRL write keeps every byte but CTRL's, and in the bare environment but DATA's and STAT's too (R60; log 6). -/
theorem keepsBytesExcept_ctrl (v : Byte) (s : State) :
    KeepsBytesExcept [.ctrl, .data, .stat] s (memWrite .ctrl v s) ∧
      (s.env ≠ .bare → KeepsBytesExcept [.ctrl] s (memWrite .ctrl v s)) := by
  have stored : KeepsBytesExcept [.ctrl] s { s.setLoc .ctrl v with inflight := s.inflight && v.getLsbD 0 } :=
    keepsBytesExcept_setLoc s .ctrl v
  rw [memWrite, afterWrite]
  rcases writeEnable_cases v s with ⟨bare, h⟩ | ⟨-, h⟩ <;> rw [h]
  · exact ⟨(stored.mono (by decide)).trans ((keepsBytesExcept_drawLocations _).mono (by decide)),
      fun notBare => absurd bare notBare⟩
  · exact ⟨stored.mono (by decide), fun _ => stored⟩

/-- The request word of a DATA write (R88). -/
theorem writeWord_data (b : Byte) : writeWord .data b = 0x800#12 + b.setWidth 12 := by
  revert b; decide

end Sys2Proof.Machine
end

section
/-! The statements of the state family about single steps: fetching and placing a word (R21, R31, R100), LOAD, ESC_DIS1
and the reads of unwritten call registers (R37, R123, R151), and the state after reset. -/

namespace Sys2Proof.Machine

/-- Settles O6, the second branch of `step`. -/
theorem stepRunsTheDecodedInstruction : Obligations.StepRunsTheDecodedInstruction :=
  fun _ _ noEvent decoded => step_of_decode noEvent decoded

/-- Settles O7, clause by clause: the issued command, the micro-operation of `phase`, the idle round. -/
theorem stepFollowsPhaseOrIssuesTheNextCommand : Obligations.StepFollowsPhaseOrIssuesTheNextCommand := by
  refine ⟨fun s c cs i noEvent noPort idle waiting decoded => ?_, fun s noEvent noPort busy => ?_,
    fun s noEvent noPort idle noProgram => ⟨rfl, ?_⟩⟩
  · rw [← fetchWord_of_command noPort idle waiting] at decoded
    rw [step_of_decode noEvent decoded, consumeWord_of_command noPort idle waiting]
  · exact step_of_noCommand noEvent noPort (.inl busy)
  · rw [step_of_noCommand noEvent noPort (.inr noProgram), idle]
    rfl

/-- Settles O8: a phase code goes into `phase`, a command to the head of `program`, the others onto `port`. -/
theorem placedWordIsFetchedNext : Obligations.PlacedWordIsFetchedNext := by
  intro s nbits w t i read decoded
  have placed : s.withFetchWord nbits w = placeWord s t := by simp only [State.withFetchWord, read]
  rw [placed]
  exact ⟨placeWord_powerOn decoded s, fetchWord_placeWord decoded s, by simp only [decodeTableWord, read, decoded]⟩

/-- Settles O29: a DATA write changes no byte, so LOAD leaves the whole space as it is. -/
theorem loadStartsTheExchangeOfTx : Obligations.LoadStartsTheExchangeOfTx := by
  intro s written
  refine ⟨_, readingCallRegisters_of_written written _, rfl, ?_, rfl, rfl, keepsBytesExcept_of_mem_eq rfl _, ?_, ?_⟩
  · rw [State.goto_trace, memWrite_trace, writeWord_data]
  · constructor <;> rfl
  · constructor <;> rfl

/-- Settles O35: four of the five read unconditionally, POLLING behind its test of the flag. -/
theorem unwrittenCallRegistersFault : Obligations.UnwrittenCallRegistersFault := by
  intro s i unwritten reads
  have fault (u : State) := readingCallRegisters_of_unwritten unwritten u
  rcases reads with reads | ⟨rfl, flagClear⟩
  · simp only [List.mem_cons, List.not_mem_nil, or_false] at reads
    rcases reads with rfl | rfl | rfl | rfl <;> exact fault _
  · have notDone : answerDone (s.answer .stat) = false := flagClear
    simp only [exec, execPolling, notDone]
    exact fault _

/-- Settles O36: the marker goes onto the trace first, then the CTRL write does the rest. -/
theorem escDis1MarksAndDisables : Obligations.EscDis1MarksAndDisables := by
  intro s written
  have ctrl : (memWrite .ctrl 0x00#8 (s.emit (.resetBegin (s.esc + 1)))).loc .ctrl = 0x00#8 :=
    memWrite_loc .ctrl _ _ (l' := .ctrl) (by decide) (by decide)
  obtain ⟨kept, keptUnlessBare⟩ := keepsBytesExcept_ctrl 0x00#8 (s.emit (.resetBegin (s.esc + 1)))
  refine ⟨_, readingCallRegisters_of_written written _, rfl, ?_, ctrl, ?_, ?_, ?_, kept, keptUnlessBare, ?_, ?_⟩
  · simp
  · rw [State.en, State.loc_goto, ctrl]; rfl
  · simp
  · simp
  · constructor <;> simp
  · constructor <;> simp

theorem inv_reset : State.reset.Inv where
  legal := rfl
  memory := rfl
  noBench := nofun
  initialised := nofun
  initialising := nofun
  noResult := fun _ => rfl
  range := ⟨Nat.zero_le _, Nat.zero_le _⟩
  counters := trivial
  line := ⟨nofun, nofun⟩
  enable := nofun
  disable := by rintro (h | h) <;> cases h
  configured := by rintro (h | h | h) <;> cases h

/-- Settles O49: in IDLE before INIT the call invariants have no call to speak of. -/
theorem invariantsHoldAtReset : Obligations.InvariantsHoldAtReset :=
  ⟨inv_reset, ⟨nofun, fun _ hasResult => absurd rfl hasResult⟩, ⟨nofun, fun _ hasResult => absurd rfl hasResult⟩, nofun⟩

end Sys2Proof.Machine
end

section
/-! Where the registers, the line and the configuration can change (R27, R35, R40, R41, R62, R205): each statement by
the cases of what SPIM can do in a step. -/

namespace Sys2Proof.Machine

/-- Settles O43: an acceptance leaves IDLE as R120 says, and so does every micro-operation but IDLE's. -/
theorem phaseMovesAsTheTableSays : Obligations.PhaseMovesAsTheTableSays := by
  intro s t noBench h
  obtain ⟨u, move, rfl⟩ := step_spimMove noBench h
  rw [peripheralMove_phase]
  cases move with
  | powerOn _ accepted =>
    obtain ⟨idle, -, rfl⟩ := powerOnReset_next accepted
    exact .inr ⟨idle, rfl⟩
  | init c program idle _ => exact .inl (by simp [idle, successors])
  | transfer c v b program idle _ => exact .inl (by simp [idle, successors])
  | microOp =>
    by_cases idle : s.phase = .idle
    · exact .inr ⟨idle, by rw [idle]; exact idle⟩
    · exact .inl (effect_microOp_phase s.phase s idle)

/-- Settles O44, register by register. -/
theorem registersAreWrittenOnlyWhereTheRulesSay : Obligations.RegistersAreWrittenOnlyWhereTheRulesSay := by
  intro p s t h
  obtain rfl := exec_next h
  refine ⟨effect_microOp_variant p s, effect_microOp_tx p s, effect_microOp_params p s, effect_microOp_callWritten p s,
    effect_microOp_window p s, effect_microOp_esc p s, effect_microOp_result p s, fun notInitEn => ?_⟩
  simp [notInitEn]

/-- Settles O46: of all instructions only INIT_EN writes `init_done`, and only the phase code 3 decodes to it. -/
theorem initDoneIsNeverClearedByAStep : Obligations.InitDoneIsNeverClearedByAStep := by
  intro s t noEvent h
  rcases step_cases h with ⟨event, -⟩ | ⟨-, i, u, decoded, ran, rfl⟩
  · exact absurd (noEvent.symm.trans event) Bool.false_ne_true
  obtain rfl := exec_next ran
  rw [peripheralMove_initDone, effect_initDone, consumeWord_initDone]
  refine ⟨fun done => by simp [done], fun notDone becomesDone => ?_⟩
  have isInitEn : i = .initEn := by simpa [notDone] using becomesDone
  exact eq_of_decode_initEn (isInitEn ▸ decoded)

/-- Settles O47: a micro-operation outside the four makes no SET_SS, and the line stays driven after the step. -/
theorem onlySetSsMovesTheLine : Obligations.OnlySetSsMovesTheLine := by
  intro s t noBench noEvent h driven notInitSs notSelect notSucceeded notTimedout
  obtain ⟨u, move, rfl⟩ := step_spimMove noBench h
  have kept : u.loc .ssport = s.loc .ssport ∧ u.initDone = true := by
    cases move with
    | powerOn event _ => exact absurd (noEvent.symm.trans event) Bool.false_ne_true
    | init _ _ idle notDone => simp [idle, notDone] at driven
    | transfer _ _ _ _ _ done => exact ⟨rfl, done⟩
    | microOp =>
      constructor
      · rw [effect_microOp_ssport, Phase.lineWrite_eq_none notInitSs notSelect notSucceeded notTimedout]
        rfl
      · simpa using driven
  obtain ⟨ssport, done⟩ := kept
  rw [peripheralMove_ssport (by simp [lineUndriven, done]), ssport]

/-- Settles O48: of what SPIM can do only INIT_CFG writes CFG. -/
theorem onlyInitCfgWritesTheConfiguration : Obligations.OnlyInitCfgWritesTheConfiguration := by
  intro s t noBench h notInitCfg
  obtain ⟨u, move, rfl⟩ := step_spimMove noBench h
  rw [peripheralMove_cfg]
  cases move with
  | powerOn _ accepted =>
    obtain ⟨-, -, rfl⟩ := powerOnReset_next accepted
    rfl
  | init | transfer => rfl
  | microOp => rw [effect_microOp_cfg, if_neg notInitCfg]

end Sys2Proof.Machine
end

section
/-! Every step keeps the invariant of SPIM (R35, R36, R186, R204): the peripheral's move, the power-on event, the two
acceptances, and the micro-operation of `phase`, field by field. -/

namespace Sys2Proof.Machine

/-! ### The invariant through the peripheral's move and the acceptances -/

/-- The phases in which the line is high once INIT has run. -/
def Phase.lineRaised : Phase → Bool
  | .drain | .select | .collect | .initEn | .idle => true
  | _ => false

theorem Phase.lineRaised_cases {p : Phase} (raised : p.lineRaised = true) :
    p.transferring = true ∨ p = .initEn ∨ p = .idle := by
  revert raised
  cases p <;> decide

theorem Phase.transferring_of_lineLow {p : Phase} (low : p.lineLow = true) : p.transferring = true := by
  revert low
  cases p <;> decide

theorem lineHigh_eq (s : State) : lineHigh s = (s.phase.lineRaised && (s.phase != .idle || s.initDone)) := by
  unfold lineHigh
  cases s.phase <;> simp [Phase.lineRaised]

section
variable {s : State}

/-- Where R35 gives the line a level, INIT_SS has run. -/
theorem lineDriven_of_inv (inv : s.Inv) (levelGiven : s.phase.lineLow = true ∨ lineHigh s = true) :
    lineUndriven s = false := by
  have doneOrInitEn : s.initDone = true ∨ s.phase = .initEn := by
    rcases levelGiven with low | high
    · exact .inl (inv.initialised (Phase.transferring_of_lineLow low)).1
    · rw [lineHigh_eq, Bool.and_eq_true] at high
      obtain ⟨raised, idleDone⟩ := high
      rcases Phase.lineRaised_cases raised with transfers | initEn | idle
      · exact .inl (inv.initialised transfers).1
      · exact .inr initEn
      · exact .inl (by simpa [idle] using idleDone)
  rcases doneOrInitEn with done | initEn <;> simp [lineUndriven, *]

theorem inv_peripheralMove (inv : s.Inv) : (peripheralMove s).Inv where
  legal := by simpa using inv.legal
  memory := wf_peripheralMove inv.memory
  noBench := by simpa using inv.noBench
  initialised := by simpa using inv.initialised
  initialising := by simpa using inv.initialising
  noResult := by simpa using inv.noResult
  range := by simpa using inv.range
  counters := by simpa [CountersOk] using inv.counters
  line := by
    have sameHigh : lineHigh (peripheralMove s) = lineHigh s := by simp [lineHigh]
    rw [peripheralMove_phase, sameHigh]
    obtain ⟨low, high⟩ := inv.line
    have sameLevel : s.phase.lineLow = true ∨ lineHigh s = true → (peripheralMove s).ssN = s.ssN :=
      fun levelGiven => by unfold State.ssN; rw [peripheralMove_ssport (lineDriven_of_inv inv levelGiven)]
    exact ⟨fun isLow => (sameLevel (.inl isLow)).trans (low isLow),
      fun isHigh => (sameLevel (.inr isHigh)).trans (high isHigh)⟩
  enable := by simpa [enabled] using inv.enable
  disable := by simpa using inv.disable
  configured := by simpa using inv.configured

/-- The invariant does not speak of the words still to be issued. -/
theorem inv_taken (inv : s.Inv) (program : List (BitVec 10)) :
    ({ s with port := none, program := program } : State).Inv :=
  { inv with noBench := nofun }

theorem inv_powerOnReset (inv : s.Inv) {t : State} (accepted : powerOnReset s = .next t) : t.Inv := by
  obtain ⟨idle, -, rfl⟩ := powerOnReset_next accepted
  exact
    { inv with
      initialised := nofun
      initialising := nofun
      noResult := fun _ => rfl
      counters := trivial
      line := ⟨nofun, nofun⟩
      enable := nofun
      disable := fun h => by rcases h with h | h <;> cases h
      configured := fun h => by rcases h with h | h | h <;> cases h }

theorem inv_acceptInit (inv : s.Inv) (notDone : s.initDone = false) (c : BitVec 10) :
    ((acceptCommand c s).goto .initCfg).Inv :=
  { inv with
    initialised := nofun
    initialising := fun _ => notDone
    noResult := fun _ => rfl
    counters := trivial
    line := ⟨nofun, nofun⟩
    enable := fun h => by simp [enabled, Phase.initialising] at h
    disable := fun h => by rcases h with h | h <;> cases h
    configured := fun h => by
      rcases h with h | h | h
      · exact absurd (notDone.symm.trans h) Bool.false_ne_true
      · cases h
      · cases h }

theorem inv_acceptTransfer (inv : s.Inv) (idle : s.phase = .idle) (done : s.initDone = true) (c : BitVec 10)
    (v : Variant) (b : Byte) : (acceptTransfer c v b s).Inv :=
  { inv with
    initialised := fun _ => ⟨done, rfl⟩
    initialising := nofun
    noResult := fun _ => rfl
    range := ⟨Nat.le_refl _, Nat.zero_le _⟩
    counters := ⟨rfl, rfl⟩
    line := ⟨nofun, fun _ => inv.line.2 (by simp [lineHigh, idle, done])⟩
    enable := fun _ => inv.enable (by simp [enabled, idle, done, Phase.initialising])
    disable := fun h => by rcases h with h | h <;> cases h
    configured := fun _ => inv.configured (.inl done) }

end

/-! ### The invariant through a micro-operation

The table of R120 first: what a phase `q` after `p` asks of the line or of the enable bit, `p` has just written or
asked for already. -/

section
variable {p q : Phase}

theorem Phase.lineLow_of_mem_successors (next : q ∈ successors p) (low : q.lineLow = true) :
    p.lineWrite = some false ∨ (p.lineWrite = none ∧ p.lineLow = true) := by
  revert q
  cases p <;> decide

theorem Phase.lineRaised_of_mem_successors (notIdle : p ≠ .idle) (next : q ∈ successors p)
    (high : q.lineRaised = true) :
    p.lineWrite = some true ∨ (p.lineWrite = none ∧ p.lineRaised = true) := by
  revert q
  cases p <;> revert notIdle <;> decide

/-- The phases between a disable and the enable that follows it (R151 to R156). -/
def Phase.disabled : Phase → Bool
  | .escEn1 | .escEn2 => true
  | _ => false

theorem Phase.enableWrite_of_disabled (next : q ∈ successors p) (off : q.disabled = true) :
    p.enableWrite = some false := by
  revert q
  cases p <;> decide

theorem Phase.enableWrite_of_not_disabled (notIdle : p ≠ .idle) (next : q ∈ successors p) (on : q.disabled = false)
    (notInit : q.initialising = false) :
    p.enableWrite = some true ∨ (p.enableWrite = none ∧ p.disabled = false ∧ p.initialising = false) := by
  revert q
  cases p <;> revert notIdle <;> decide

theorem Phase.transferring_of_mem_successors (notIdle : p ≠ .idle) (next : q ∈ successors p)
    (transfers : q.transferring = true) : p.transferring = true := by
  revert q
  cases p <;> revert notIdle <;> decide

theorem Phase.initialising_of_mem_successors (notIdle : p ≠ .idle) (next : q ∈ successors p)
    (inits : q.initialising = true) : p.initialising = true ∧ p ≠ .initEn := by
  revert q
  cases p <;> revert notIdle <;> decide

theorem Phase.eq_initSs_of_mem_successors (next : q ∈ successors p) (inits : q = .initSs ∨ q = .initEn)
    (notInitCfg : p ≠ .initCfg) : p = .initSs := by
  revert q
  cases p <;> revert notInitCfg <;> decide

end

theorem enabled_eq (s : State) : enabled s = (!s.phase.disabled && (s.initDone && !s.phase.initialising)) := by
  unfold enabled
  cases s.phase <;> simp [Phase.disabled]

/-- `esc + 1` stays in its range, whatever `esc` was (R132; log 10). -/
theorem incrementedEsc_le (s : State) : incrementedEsc s ≤ s.params.escalationMax := by
  unfold incrementedEsc
  split
  case isTrue below => exact below
  case isFalse => exact Nat.le_of_lt_succ (Nat.mod_lt _ (Nat.succ_pos _))

theorem poll_window_le (s : State) (h : s.window ≤ s.params.windowMax) : (poll s).window ≤ s.params.windowMax := by
  rcases poll_cases s with ⟨-, flagSet⟩ | ⟨-, flagClear⟩
  · simpa [flagSet] using h
  · obtain ⟨w, p, d, counted, inRange, -⟩ := countPoll_frame (memRead .stat s)
    rw [flagClear, counted]
    simpa [h] using inRange

section
variable {s : State}

theorem countersOk_poll (inv : s.Inv) (polling : s.phase = .polling) : CountersOk (poll s) := by
  have counters := inv.counters
  simp only [CountersOk, polling] at counters
  obtain ⟨windowPos, windowLe, escLe⟩ := counters
  rcases poll_cases s with ⟨-, flagSet⟩ | ⟨-, flagClear⟩
  · rw [flagSet]
    simpa [CountersOk] using ⟨windowPos, windowLe, escLe⟩
  rw [flagClear]
  rcases countPoll_cases (memRead .stat s) (by simpa using windowPos) with
    ⟨more, waits⟩ | ⟨-, below, escalates⟩ | ⟨-, spent, raises⟩
  · simp only [memRead_window] at more
    simp only [waits, CountersOk, State.goto_phase, State.goto_window, State.setWindow_window, memRead_window,
      State.goto_params, State.setWindow_params, memRead_params, State.goto_esc, State.setWindow_esc, memRead_esc]
    omega
  · simpa [escalates, CountersOk] using below
  · simp only [memRead_params, memRead_esc] at spent
    simpa [raises, raiseTimeout, CountersOk] using Nat.le_antisymm escLe spent

theorem countersOk_effect (inv : s.Inv) : CountersOk (effect (microOp s.phase) s) := by
  have counters := inv.counters
  have windowPos : 1 ≤ s.params.windowMax := by simpa [Config.Params.legal] using inv.legal
  cases hp : s.phase with
  | polling => exact countersOk_poll inv hp
  | load =>
    simp only [CountersOk, hp] at counters
    simp [CountersOk, microOp, effect, counters, windowPos]
  | escEn2 => simpa [CountersOk, microOp, effect, windowPos] using incrementedEsc_le (memWrite .ctrl 0x01#8 s)
  | idle | initCfg | initSs | initEn | collect | timedout => simp [CountersOk, microOp, effect, hp]
  | _ => simpa [CountersOk, microOp, effect, hp] using counters

theorem range_effect (inv : s.Inv) :
    (effect (microOp s.phase) s).window ≤ s.params.windowMax ∧
      (effect (microOp s.phase) s).esc ≤ s.params.escalationMax := by
  obtain ⟨windowLe, escLe⟩ := inv.range
  cases hp : s.phase with
  | polling => exact ⟨poll_window_le s windowLe, by simpa [microOp, effect] using escLe⟩
  | escEn2 => simpa [microOp, effect] using incrementedEsc_le (memWrite .ctrl 0x01#8 s)
  | _ => simpa [microOp, effect] using ⟨windowLe, escLe⟩

/-- Outside COLLECT and TIMEDOUT the result is NONE still; those two return to IDLE with `init_done` set. -/
theorem noResult_effect (inv : s.Inv) (notIdle : s.phase ≠ .idle)
    (asked : (effect (microOp s.phase) s).phase ≠ .idle ∨ (effect (microOp s.phase) s).initDone = false) :
    (effect (microOp s.phase) s).result = .none := by
  have initialised := inv.initialised
  cases hp : s.phase with
  | collect | timedout =>
    rw [hp] at asked initialised
    simp [microOp, effect, (initialised rfl).1] at asked
  | _ =>
    rw [effect_microOp_result _ _ (by decide) (by decide)]
    exact inv.noResult (.inl notIdle)

theorem line_effect (inv : s.Inv) (notIdle : s.phase ≠ .idle) :
    ((effect (microOp s.phase) s).phase.lineLow = true → (effect (microOp s.phase) s).ssN = false) ∧
      (lineHigh (effect (microOp s.phase) s) = true → (effect (microOp s.phase) s).ssN = true) := by
  have next := effect_microOp_phase s.phase s notIdle
  obtain ⟨low, high⟩ := inv.line
  simp only [lineHigh_eq, Bool.and_eq_true, effect_microOp_ssN] at high ⊢
  constructor
  · intro nextLow
    rcases Phase.lineLow_of_mem_successors next nextLow with written | ⟨unwritten, isLow⟩
    · rw [written]; rfl
    · rw [unwritten]; exact low isLow
  · rintro ⟨nextRaised, -⟩
    rcases Phase.lineRaised_of_mem_successors notIdle next nextRaised with written | ⟨unwritten, raised⟩
    · rw [written]; rfl
    · rw [unwritten]; exact high ⟨raised, by simp [notIdle]⟩

theorem enable_effect (inv : s.Inv) (notIdle : s.phase ≠ .idle) (on : enabled (effect (microOp s.phase) s) = true) :
    (effect (microOp s.phase) s).en = true := by
  have next := effect_microOp_phase s.phase s notIdle
  simp only [enabled_eq, Bool.and_eq_true, Bool.not_eq_true'] at on
  obtain ⟨nextOn, nextDone, nextNotInit⟩ := on
  rw [effect_microOp_en]
  rcases Phase.enableWrite_of_not_disabled notIdle next nextOn nextNotInit with written | ⟨unwritten, isOn, notInit⟩
  · rw [written]; rfl
  · have done : s.initDone = true := by
      have notInitEn : s.phase ≠ .initEn := fun h => by simp [h, Phase.initialising] at notInit
      simpa [notInitEn] using nextDone
    rw [unwritten]
    exact inv.enable (by simp [enabled_eq, isOn, done, notInit])

theorem disable_effect (notIdle : s.phase ≠ .idle)
    (off : (effect (microOp s.phase) s).phase = .escEn1 ∨ (effect (microOp s.phase) s).phase = .escEn2) :
    (effect (microOp s.phase) s).en = false := by
  have isDisabled : (effect (microOp s.phase) s).phase.disabled = true := by rcases off with h | h <;> rw [h] <;> rfl
  rw [effect_microOp_en, Phase.enableWrite_of_disabled (effect_microOp_phase s.phase s notIdle) isDisabled]
  rfl

theorem configured_effect (inv : s.Inv) (notIdle : s.phase ≠ .idle)
    (asked : (effect (microOp s.phase) s).initDone = true ∨ (effect (microOp s.phase) s).phase = .initSs ∨
      (effect (microOp s.phase) s).phase = .initEn) :
    (effect (microOp s.phase) s).loc .cfg = s.params.cfgInit := by
  rw [effect_microOp_cfg]
  split
  case isTrue => rfl
  case isFalse notInitCfg =>
    refine inv.configured ?_
    rcases asked with done | nextInit
    · rw [effect_microOp_initDone, Bool.or_eq_true, decide_eq_true_eq] at done
      exact done.imp_right .inr
    · have isInitSs := Phase.eq_initSs_of_mem_successors (effect_microOp_phase s.phase s notIdle) nextInit notInitCfg
      exact .inr (.inl isInitSs)

theorem inv_effect (inv : s.Inv) : (effect (microOp s.phase) s).Inv := by
  by_cases idle : s.phase = .idle
  · rw [idle]; exact inv
  have next := effect_microOp_phase s.phase s idle
  exact
    { legal := by simpa using inv.legal
      memory := wf_effect_microOp s.phase s inv.memory
      noBench := by simpa using inv.noBench
      initialised := fun transfers => by
        obtain ⟨done, written⟩ := inv.initialised (Phase.transferring_of_mem_successors idle next transfers)
        simp [done, written]
      initialising := fun inits => by
        obtain ⟨init, notInitEn⟩ := Phase.initialising_of_mem_successors idle next inits
        simp [inv.initialising init, notInitEn]
      noResult := noResult_effect inv idle
      range := by simpa using range_effect inv
      counters := countersOk_effect inv
      line := line_effect inv idle
      enable := enable_effect inv idle
      disable := disable_effect idle
      configured := by simpa using configured_effect inv idle }

theorem inv_spimMove (inv : s.Inv) {t : State} (move : SpimMove s t) : t.Inv := by
  cases move with
  | powerOn _ accepted => exact inv_powerOnReset inv accepted
  | init c program _ notDone => exact inv_acceptInit (inv_taken inv program) notDone c
  | transfer c v b program idle done => exact inv_acceptTransfer (inv_taken inv program) idle done c v b
  | microOp => exact inv_effect inv

end

/-- Settles O50: what SPIM does keeps the invariant (`inv_spimMove`), and so does the peripheral's move after it. -/
theorem stepKeepsTheInvariant : Obligations.StepKeepsTheInvariant := by
  intro s t inv h
  obtain ⟨u, move, rfl⟩ := step_spimMove inv.noBench h
  exact inv_peripheralMove (inv_spimMove inv move)

end Sys2Proof.Machine
end

section
/-! Rules for the memory family: what a single access and a micro-operation do to the peripheral and put on the trace,
and that a micro-operation with written call registers completes. -/

namespace Sys2Proof.Machine

/-! ### The frame of one access -/

section
variable (l : Loc) (v : Byte) (s : State)

theorem keepsCall_memRead : KeepsCall s (memRead l s) := by constructor <;> simp

theorem keepsCall_memWrite : KeepsCall s (memWrite l v s) := by constructor <;> simp

theorem keepsCounters_memRead : KeepsCounters s (memRead l s) := by constructor <;> simp

theorem keepsCounters_memWrite : KeepsCounters s (memWrite l v s) := by constructor <;> simp

theorem keepsExchange_memRead : KeepsExchange s (memRead l s) := by constructor <;> simp

/-- Of the writes only those to DATA and CTRL touch the exchange (R57, R60). -/
theorem keepsExchange_memWrite {l : Loc} (notData : l ≠ .data) (notCtrl : l ≠ .ctrl) :
    KeepsExchange s (memWrite l v s) := by
  constructor <;> simp [notData, notCtrl]

end

/-- An enabling CTRL write abandons nothing (R60). -/
theorem keepsExchange_enable (s : State) : KeepsExchange s (memWrite .ctrl 0x01#8 s) := by
  constructor <;> simp

section
variable {s t : State}

theorem KeepsCall.goto (h : KeepsCall s t) (p : Phase) : KeepsCall s (t.goto p) :=
  ⟨h.variant, h.tx, h.result, h.initDone, h.callWritten, h.params, h.program, h.port, h.powerOn⟩

theorem KeepsCounters.goto (h : KeepsCounters s t) (p : Phase) : KeepsCounters s (t.goto p) := ⟨h.window, h.esc⟩

theorem KeepsExchange.goto (h : KeepsExchange s t) (p : Phase) : KeepsExchange s (t.goto p) := ⟨h.inflight, h.out⟩

end

/-! ### The flag and the control locations after an access -/

section
variable (s : State)

@[simp] theorem done_goto (p : Phase) : (s.goto p).done = s.done := rfl
@[simp] theorem done_setWindow (w : Nat) : (s.setWindow w).done = s.done := rfl

theorem done_congr {s t : State} (h : t.mem = s.mem) : t.done = s.done := by
  rw [State.done, State.done, State.loc_congr h]

@[simp] theorem done_memRead_data : (memRead .data s).done = false :=
  (done_congr (memRead_data_mem s)).trans s.done_clearDone

@[simp] theorem done_memRead_stat : (memRead .stat s).done = s.done := done_congr (memRead_stat_mem s)

@[simp] theorem done_memWrite_stat (v : Byte) : (memWrite .stat v s).done = false :=
  (done_congr (memWrite_stat_mem v s)).trans s.done_clearDone

@[simp] theorem done_memWrite_data (v : Byte) : (memWrite .data v s).done = s.done := done_congr (memWrite_data_mem v s)

@[simp] theorem done_memWrite_ssport (v : Byte) : (memWrite .ssport v s).done = s.done := by
  rw [State.done, State.done, State.loc_congr (memWrite_ssport_mem v s), State.loc_setLoc_other s v (by decide)]

theorem memWrite_loc_same (l : Loc) (v : Byte) (notData : l ≠ .data) (notStat : l ≠ .stat) (notCfg : l ≠ .cfg) :
    (memWrite l v s).loc l = v := by
  rw [memWrite_loc l v s notData notStat, if_pos rfl, if_neg notCfg]

theorem memWrite_ctrl_en (e : Bool) : (memWrite .ctrl (zext8 e) s).en = e := by
  rw [State.en, memWrite_loc_same s .ctrl _ (by decide) (by decide) (by decide), zext8_getLsbD_zero]

theorem memWrite_ssport_ssN (e : Bool) : (memWrite .ssport (zext8 e) s).ssN = e := by
  rw [State.ssN, memWrite_loc_same s .ssport _ (by decide) (by decide) (by decide), zext8_getLsbD_zero]

theorem keepsBytesExcept_memRead_data : KeepsBytesExcept [.stat] s (memRead .data s) :=
  keepsBytesExcept_setLoc s .stat _

theorem keepsBytesExcept_memWrite_stat (v : Byte) : KeepsBytesExcept [.stat] s (memWrite .stat v s) :=
  keepsBytesExcept_setLoc s .stat _

end

theorem zext8_eq_setWidth (b : Bool) : zext8 b = (BitVec.ofBool b).setWidth 8 := by revert b; decide

theorem writeWord_ctrl_zext8 (e : Bool) : writeWord .ctrl (zext8 e) = 0xA00#12 + (BitVec.ofBool e).setWidth 12 := by
  revert e; decide

theorem writeWord_ssport_zext8 (l : Bool) :
    writeWord .ssport (zext8 l) = 0xC00#12 + (BitVec.ofBool l).setWidth 12 := by
  revert l; decide

/-! ### What a read is answered with -/

section
variable {s : State}

theorem answer_data_of_contract (contract : s.env.isContract = true) : s.answer .data = s.loc .data := by
  unfold State.answer
  cases h : s.env <;> simp [Env.isContract, h] at contract ⊢

theorem answer_stat_of_contract (contract : s.env.isContract = true) : s.answer .stat = zext8 s.done := by
  unfold State.answer
  cases h : s.env <;> simp [Env.isContract, h] at contract ⊢

end

/-! ### A micro-operation that completes -/

theorem execPolling_of_written {s : State} (written : s.callWritten = true) : execPolling s = .next (poll s) :=
  execPolling_next.mpr ⟨.inr written, rfl⟩

/-- A micro-operation completes where its operands have been written (R37, R74). -/
theorem exec_microOp {p : Phase} {s : State} (written : p.transferring = true → s.callWritten = true) :
    exec (microOp p) s = .next (effect (microOp p) s) := by
  cases p with
  | load | escDis1 | escEn2 | collect => exact readingCallRegisters_of_written (written rfl) _
  | polling => exact execPolling_of_written (written rfl)
  | _ => rfl

/-! ### What a micro-operation puts on the trace -/

/-- The events of a micro-operation: the access of R74, with the marker of R151 before it and the RESULT of R108 after
it (`effect_microOp_trace`). -/
def Phase.events (s : State) : Phase → List Event
  | .idle => []
  | .initCfg => [.access 0xB00#12 none]
  | .initSs => [.access 0xC01#12 none]
  | .initEn => [.access 0xA01#12 none]
  | .drain => [.access 0x000#12 (some (s.answer .data))]
  | .select => [.access 0xC00#12 none]
  | .load => [.access (0x800#12 + s.tx.setWidth 12) none]
  | .polling => [.access 0x100#12 (some (s.answer .stat))]
  | .escDis1 => [.resetBegin (s.esc + 1), .access 0xA00#12 none]
  | .escEn1 => [.access 0xA01#12 none]
  | .escDrain => [.access 0x000#12 (some (s.answer .data))]
  | .escClr => [.access 0x900#12 none]
  | .escDis2 => [.access 0xA00#12 none]
  | .escEn2 => [.access 0xA01#12 none]
  | .succeeded => [.access 0xC01#12 none]
  | .collect => [.access 0x000#12 (some (s.answer .data)), .result (collected s)]
  | .timedout => [.access 0xC01#12 none, .result .timeout]

section
variable (p : Phase) (s : State)

theorem poll_trace : (poll s).trace = s.trace ++ [.access 0x100#12 (some (s.answer .stat))] := by
  obtain ⟨w, p, d, h⟩ := poll_frame s
  simp [h]

theorem effect_microOp_trace : (effect (microOp p) s).trace = s.trace ++ p.events s := by
  cases p with
  | idle => exact (List.append_nil _).symm
  | polling => exact poll_trace s
  | load => simp [microOp, effect, Phase.events, writeWord_data]
  | _ => simp [microOp, effect, Phase.events]

end

end Sys2Proof.Machine
end

section
/-! Delivery under `P_contract` (R208): a success in a call without a reset stands on a completed exchange of `tx`. -/

namespace Sys2Proof.Machine

/-! ### The exchange through a poll and through the peripheral's move -/

section
variable (s : State)

theorem keepsExchange_poll : KeepsExchange s (poll s) := by
  obtain ⟨w, p, d, h⟩ := poll_frame s
  rw [h]; constructor <;> simp

@[simp] theorem poll_inflight : (poll s).inflight = s.inflight := (keepsExchange_poll s).inflight

@[simp] theorem poll_out : (poll s).out = s.out := (keepsExchange_poll s).out

@[simp] theorem poll_done : (poll s).done = s.done := done_congr (poll_mem s)

/-- No micro-operation brings `P_contract` about; a DATA write can end it (U4; log 7). -/
theorem isContract_of_effect {p : Phase} (contract : (effect (microOp p) s).env.isContract = true) :
    s.env.isContract = true := by
  have write (l : Loc) (v : Byte) (s : State) (h : (memWrite l v s).env.isContract = true) :
      s.env.isContract = true := by
    rw [memWrite_env] at h
    split at h
    · cases h
    · exact h
  cases p with
  | idle => exact contract
  | drain | escDrain | collect => exact (memRead_isContract .data s).symm.trans contract
  | polling =>
    obtain ⟨w, p, d, h⟩ := poll_frame s
    rw [microOp, effect, h] at contract
    exact (memRead_isContract .stat s).symm.trans contract
  | escDis1 => exact write _ _ (s.emit _) contract
  | _ => exact write _ _ s contract

theorem driftLine_done : (driftLine s).done = s.done := by
  rcases driftLine_cases s with ⟨-, h⟩ | ⟨-, h⟩ <;> rw [h]
  exact congrArg answerDone (State.loc_setLoc_other s _ (by decide))

theorem complete_cases (v : Byte) :
    complete v s = s ∨ (s.inflight = true ∧ (complete v s).inflight = false ∧ (complete v s).done = true) := by
  by_cases able : s.inflight = true ∧ s.en = true
  · obtain ⟨inflight, en⟩ := able
    refine .inr ⟨inflight, by simp [complete, inflight, en], ?_⟩
    rw [State.done, complete_enabled v inflight en]
    exact answerDone_setDoneBit _
  · exact .inl (if_neg (by simpa using able))

theorem environmentMove_of_contract {plan : List (Option Byte)} (h : s.env = .contract plan) :
    environmentMove s = contractMove plan s := by
  simp only [environmentMove, h]

/-- Everything the move of `P_contract` can do: its plan or a draw advances, and a completion is taken or not. -/
theorem contractMove_eq {plan : List (Option Byte)} (h : s.env = .contract plan) :
    ∃ (rest : List (Option Byte)) (d : Nat),
      contractMove plan s = { s with env := .contract rest, draws := d } ∨
      ∃ v, contractMove plan s = complete v { s with env := .contract rest, draws := d } := by
  match plan with
  | none :: rest => exact ⟨rest, s.draws, .inl rfl⟩
  | some v :: rest => exact ⟨rest, s.draws, .inr ⟨v, rfl⟩⟩
  | [] =>
    refine ⟨[], s.draws + 1, ?_⟩
    rw [← h]
    by_cases taken : Config.freeBool s.draws = true
    · exact .inr ⟨_, if_pos taken⟩
    · exact .inl (if_neg taken)

theorem peripheralMove_isContract : (peripheralMove s).env.isContract = s.env.isContract := by
  rw [peripheralMove, driftLine_env]
  cases h : s.env with
  | contract plan =>
    rw [environmentMove_of_contract s h]
    obtain ⟨rest, d, moved | ⟨v, moved⟩⟩ := contractMove_eq s h <;> rw [moved]
    · rfl
    · rw [complete_env]; rfl
  | _ => simp [environmentMove, bareMove, h]

/-- Between two steps `P_contract` leaves the exchange and the flag alone, or completes the exchange in flight and sets
the flag (R63, R68). -/
theorem peripheralMove_cases_of_contract (contract : s.env.isContract = true) :
    ((peripheralMove s).inflight = s.inflight ∧ (peripheralMove s).done = s.done) ∨
    (s.inflight = true ∧ (peripheralMove s).inflight = false ∧ (peripheralMove s).done = true) := by
  rw [peripheralMove, driftLine_inflight, driftLine_done]
  cases h : s.env with
  | contract plan =>
    rw [environmentMove_of_contract s h]
    obtain ⟨rest, d, moved | ⟨v, moved⟩⟩ := contractMove_eq s h <;> rw [moved]
    · exact .inl ⟨rfl, rfl⟩
    · rcases complete_cases { s with env := .contract rest, draws := d } v with same | completed
      · exact .inl (by rw [same]; exact ⟨rfl, rfl⟩)
      · exact .inr completed
  | _ => rw [h] at contract; cases contract

end

/-! ### Every step keeps DeliveryOk -/

section
variable {s : State}

/-- Where nothing is in flight the peripheral's move changes nothing DeliveryOk speaks of; a completion while polling is
the one it describes. -/
theorem deliveryOk_peripheralMove (ok : DeliveryOk s) : DeliveryOk (peripheralMove s) := by
  intro contract
  rw [peripheralMove_isContract] at contract
  have h := ok contract
  simp only [peripheralMove_phase, peripheralMove_trace, peripheralMove_out, peripheralMove_tx]
  rcases peripheralMove_cases_of_contract s contract with ⟨inflight, done⟩ | ⟨flying, inflight, done⟩
  · rw [inflight, done]; exact h
  · rw [inflight, done]
    cases hp : s.phase with
    | polling =>
      simp only [hp, flying] at h ⊢
      split at h
      · next noReset => exact (if_pos noReset).symm ▸ ⟨h.1, rfl⟩
      · cases h
    | escDis1 => trivial
    | _ => simp [hp, flying] at h

/-- The markers of the call so far, by `esc` (R151, R158). -/
theorem resetCount_of_callOk (call : CallOk s) (transfers : s.phase.transferring = true) :
    resetCount (callTrace s.trace) = if s.phase.escalating ∧ s.phase ≠ .escDis1 then s.esc + 1 else s.esc := by
  obtain ⟨-, -, -, -, resets, -⟩ := call.1 transfers
  exact resets

/-- LOAD puts the exchange of `tx` in flight, in a call that has had no reset (R57, R123). -/
theorem deliveryOk_load (inv : s.Inv) (call : CallOk s) (load : s.phase = .load) (notDone : s.done = false) :
    DeliveryOk (effect .load s) := by
  have counters := inv.counters
  simp only [CountersOk, load] at counters
  have noReset : resetCount (callTrace s.trace) = 0 := by
    simpa [load, Phase.escalating, counters.2] using resetCount_of_callOk call (by rw [load]; rfl)
  intro _
  simp [effect, noReset, notDone]

/-- A poll finds the flag set only where the exchange has completed; with the flag clear Timeout is raised only after a
reset, and the reset has abandoned the exchange (R60, R171). -/
theorem deliveryOk_poll (inv : s.Inv) (call : CallOk s) (resetPermitted : 1 ≤ s.params.escalationMax)
    (contract : s.env.isContract = true) (polling : s.phase = .polling)
    (h : if resetCount (callTrace s.trace) = 0 then s.out = s.tx ∧ s.inflight = !s.done else s.inflight = false) :
    DeliveryOk (poll s) := by
  have counters := inv.counters
  simp only [CountersOk, polling] at counters
  obtain ⟨windowPos, -, -⟩ := counters
  have resets : resetCount (callTrace s.trace) = s.esc := by
    simpa [polling, Phase.escalating] using resetCount_of_callOk call (by rw [polling]; rfl)
  have flag : answerDone (s.answer .stat) = s.done := by rw [answer_stat_of_contract contract, answerDone_zext8]
  intro _
  rcases poll_cases s with ⟨flagSet, e⟩ | ⟨flagClear, e⟩ <;> rw [e]
  · have done : s.done = true := flag.symm.trans flagSet
    have ended : s.inflight = false := by
      split at h
      · simpa [done] using h.2
      · exact h
    have delivered : resetCount (callTrace s.trace) = 0 → s.out = s.tx := fun noReset => (if_pos noReset ▸ h).1
    simpa [ended, done] using delivered
  · rcases countPoll_cases (memRead .stat s) (by simpa using windowPos) with
      ⟨-, e⟩ | ⟨-, -, e⟩ | ⟨-, spent, e⟩ <;> rw [e]
    · simpa using h
    · simp
    · have resetMade : resetCount (callTrace s.trace) ≠ 0 := by
        rw [memRead_params, memRead_esc] at spent
        omega
      simpa [raiseTimeout, resetMade] using h

/-- Polling starts again after a reset with nothing in flight (R60, R156). -/
theorem deliveryOk_escEn2 (call : CallOk s) (escEn2 : s.phase = .escEn2) (inflight : s.inflight = false) :
    DeliveryOk (effect .escEn2 s) := by
  have resets : resetCount (callTrace s.trace) = s.esc + 1 := by
    simpa [escEn2, Phase.escalating] using resetCount_of_callOk call (by rw [escEn2]; rfl)
  intro _
  simp [effect, resets, inflight]

theorem deliveryOk_effect (inv : s.Inv) (call : CallOk s) (resetPermitted : 1 ≤ s.params.escalationMax)
    (ok : DeliveryOk s) : DeliveryOk (effect (microOp s.phase) s) := by
  intro contract
  have contractBefore := isContract_of_effect s contract
  have h := ok contractBefore
  cases hp : s.phase with
  | load =>
    simp only [hp] at h
    rw [hp] at contract
    exact deliveryOk_load inv call hp h.2 contract
  | polling =>
    simp only [hp] at h
    rw [hp] at contract
    exact deliveryOk_poll inv call resetPermitted contractBefore hp h contract
  | escEn2 =>
    simp only [hp] at h
    rw [hp] at contract
    exact deliveryOk_escEn2 call hp h contract
  | collect => simpa [hp, microOp, effect] using (hp ▸ h).1
  | escDis1 | escDis2 => simp [microOp, effect]
  | _ => simpa [hp, microOp, effect] using h

/-- An acceptance and the power-on event leave the exchange alone and IDLE behind. -/
theorem deliveryOk_spimMove (inv : s.Inv) (call : CallOk s) (resetPermitted : 1 ≤ s.params.escalationMax)
    (ok : DeliveryOk s) {t : State} (move : SpimMove s t) : DeliveryOk t := by
  cases move with
  | powerOn _ accepted =>
    obtain ⟨idle, -, rfl⟩ := powerOnReset_next accepted
    intro contract
    simpa [idle] using ok contract
  | init c program idle _ =>
    intro contract
    simpa [idle] using ok contract
  | transfer c v b program idle _ =>
    intro contract
    simpa [idle] using ok contract
  | microOp => exact deliveryOk_effect inv call resetPermitted ok

end

/-- Settles O57: what SPIM does keeps DeliveryOk (`deliveryOk_spimMove`), and so does the peripheral's move after it. -/
theorem successWithoutResetMeansDelivery : Obligations.SuccessWithoutResetMeansDelivery := by
  intro s t inv call resetPermitted ok h
  obtain ⟨u, move, rfl⟩ := step_spimMove inv.noBench h
  exact deliveryOk_peripheralMove (deliveryOk_spimMove inv call resetPermitted ok move)

end Sys2Proof.Machine
end

section
/-! The statements about single accesses (R56 to R62, R74), about the micro-operations that only make one (R121, R152
to R155), and about the environments (R63, R68, R69). -/

namespace Sys2Proof.Machine

/-! ### The accesses -/

/-- Settles O18. -/
theorem readingDataClearsDone : Obligations.ReadingDataClearsDone := by
  intro s
  refine ⟨_, rfl, memRead_trace .data s, ?_, done_memRead_data s, keepsBytesExcept_memRead_data s,
    memRead_phase .data s, keepsCall_memRead .data s, keepsCounters_memRead .data s, keepsExchange_memRead .data s⟩
  rintro (bare | contract)
  · simp only [State.answer, bare]
  · exact answer_data_of_contract contract

/-- Settles O19. -/
theorem writingDataStartsAnExchange : Obligations.WritingDataStartsAnExchange := by
  intro s b
  exact ⟨_, rfl, by rw [memWrite_trace, writeWord_data], rfl, rfl, keepsBytesExcept_of_mem_eq rfl _,
    memWrite_phase .data b s, keepsCall_memWrite .data b s, keepsCounters_memWrite .data b s⟩

/-- Settles O20. -/
theorem readingStatusHasNoSideEffect : Obligations.ReadingStatusHasNoSideEffect := by
  intro s
  exact ⟨_, rfl, memRead_trace .stat s, keepsBytesExcept_of_mem_eq rfl _, memRead_phase .stat s,
    keepsCall_memRead .stat s, keepsCounters_memRead .stat s, keepsExchange_memRead .stat s⟩

/-- Settles O21. -/
theorem clearingStatusClearsDone : Obligations.ClearingStatusClearsDone := by
  intro s
  exact ⟨_, rfl, memWrite_trace .stat _ s, done_memWrite_stat s _, keepsBytesExcept_memWrite_stat s _,
    memWrite_phase .stat _ s, keepsCall_memWrite .stat _ s, keepsCounters_memWrite .stat _ s,
    keepsExchange_memWrite _ s (by decide) (by decide)⟩

/-- Settles O22: the byte on the wire is the bit, and the write keeps what a CTRL write keeps. -/
theorem writingEnableSwitchesThePeripheral : Obligations.WritingEnableSwitchesThePeripheral := by
  intro s e
  obtain ⟨kept, keptUnlessBare⟩ := keepsBytesExcept_ctrl (zext8 e) s
  refine ⟨_, rfl, by rw [memWrite_trace, writeWord_ctrl_zext8], ?_, memWrite_ctrl_en s e, ?_, memWrite_out .ctrl _ s,
    kept, keptUnlessBare, memWrite_phase .ctrl _ s, keepsCall_memWrite .ctrl _ s, keepsCounters_memWrite .ctrl _ s⟩
  · rw [memWrite_loc_same s .ctrl _ (by decide) (by decide) (by decide), zext8_eq_setWidth]
  · rw [memWrite_inflight, zext8_getLsbD_zero]; rfl

/-- Settles O23. -/
theorem writingConfigurationAndSelectLine : Obligations.WritingConfigurationAndSelectLine := by
  constructor
  · intro s
    exact ⟨_, rfl, memWrite_trace .cfg _ s, memWrite_loc .cfg _ s (l' := .cfg) (by decide) (by decide),
      keepsBytesExcept_setLoc s .cfg _, memWrite_phase .cfg _ s, keepsCall_memWrite .cfg _ s,
      keepsCounters_memWrite .cfg _ s, keepsExchange_memWrite _ s (by decide) (by decide)⟩
  · intro s l
    refine ⟨_, rfl, by rw [memWrite_trace, writeWord_ssport_zext8], ?_, memWrite_ssport_ssN s l,
      keepsBytesExcept_setLoc s .ssport _, memWrite_phase .ssport _ s, keepsCall_memWrite .ssport _ s,
      keepsCounters_memWrite .ssport _ s, keepsExchange_memWrite _ s (by decide) (by decide)⟩
    rw [memWrite_loc_same s .ssport _ (by decide) (by decide) (by decide), zext8_eq_setWidth]

/-! ### The micro-operations that only make an access -/

/-- What DRAIN and ESC_DRAIN do, each with its own successor. -/
theorem memRead_data_goto (s : State) (p : Phase) :
    let t := (memRead .data s).goto p
    t.phase = p ∧ t.trace = s.trace ++ [.access 0x000#12 (some (s.answer .data))] ∧ t.done = false ∧
      KeepsBytesExcept [.stat] s t ∧ KeepsCall s t ∧ KeepsCounters s t ∧ KeepsExchange s t :=
  ⟨rfl, memRead_trace .data s, done_memRead_data s, keepsBytesExcept_memRead_data s,
    (keepsCall_memRead .data s).goto p, (keepsCounters_memRead .data s).goto p, (keepsExchange_memRead .data s).goto p⟩

/-- Settles O27. -/
theorem drainDropsTheStaleByte : Obligations.DrainDropsTheStaleByte :=
  fun s => ⟨_, rfl, memRead_data_goto s .select⟩

/-- Settles O37. -/
theorem escEn1AndEscDis2SwitchThePeripheral : Obligations.EscEn1AndEscDis2SwitchThePeripheral := by
  constructor
  · intro s
    obtain ⟨kept, keptUnlessBare⟩ := keepsBytesExcept_ctrl 0x01#8 s
    exact ⟨_, rfl, rfl, memWrite_trace .ctrl _ s, memWrite_loc_same s .ctrl _ (by decide) (by decide) (by decide),
      memWrite_ctrl_en s true, (keepsExchange_enable s).goto _, kept, keptUnlessBare,
      (keepsCall_memWrite .ctrl _ s).goto _, (keepsCounters_memWrite .ctrl _ s).goto _⟩
  · intro s
    obtain ⟨kept, keptUnlessBare⟩ := keepsBytesExcept_ctrl 0x00#8 s
    have abandoned : (memWrite .ctrl 0x00#8 s).inflight = false := by simp
    exact ⟨_, rfl, rfl, memWrite_trace .ctrl _ s, memWrite_loc_same s .ctrl _ (by decide) (by decide) (by decide),
      memWrite_ctrl_en s false, abandoned, memWrite_out .ctrl _ s, kept, keptUnlessBare,
      (keepsCall_memWrite .ctrl _ s).goto _, (keepsCounters_memWrite .ctrl _ s).goto _⟩

/-- Settles O38. -/
theorem escDrainAndEscClrClearTheFlag : Obligations.EscDrainAndEscClrClearTheFlag := by
  refine ⟨fun s => ⟨_, rfl, memRead_data_goto s .escClr⟩, fun s => ?_⟩
  have exchange : KeepsExchange s (memWrite .stat 0x00#8 s) := keepsExchange_memWrite _ s (by decide) (by decide)
  exact ⟨_, rfl, rfl, memWrite_trace .stat _ s, done_memWrite_stat s 0x00#8,
    keepsBytesExcept_memWrite_stat s 0x00#8, (keepsCall_memWrite .stat _ s).goto _,
    (keepsCounters_memWrite .stat _ s).goto _, exchange.goto _⟩

/-! ### The environments -/

theorem keepsBytesExcept_complete (v : Byte) (s : State) : KeepsBytesExcept [.data, .stat] s (complete v s) := by
  unfold complete
  split
  · exact ((keepsBytesExcept_setLoc s .data v).mono (by decide)).trans
      ((keepsBytesExcept_setLoc (s.setLoc .data v) .stat _).mono (by decide))
  · exact keepsBytesExcept_of_mem_eq rfl _

/-- `complete` does nothing where nothing is in flight or the peripheral is disabled (R63). -/
theorem complete_of_not_enabled (v : Byte) {s : State} (unable : s.inflight = false ∨ s.en = false) :
    complete v s = s := by
  rcases unable with h | h <;> simp [complete, h]

/-- Settles O41, clause by clause. -/
theorem environmentsAnswerAsSpecified : Obligations.EnvironmentsAnswerAsSpecified := by
  refine ⟨fun s v inflight en => ?_, fun _ v unable => complete_of_not_enabled v unable, fun s contract => ?_,
    fun s d h => ?_, fun s h => ?_, fun s n d h => ?_, fun s t b contract h => ?_⟩
  · exact ⟨complete_enabled v inflight en .data,
      (congrArg answerDone (complete_enabled v inflight en .stat)).trans (answerDone_setDoneBit _),
      by simp [complete, inflight, en], keepsBytesExcept_complete v s⟩
  · exact ⟨answer_data_of_contract contract, by rw [answer_stat_of_contract contract, zext8_eq_setWidth]⟩
  · simp [State.answer, h]
  · simp [State.answer, h]
  · simp [State.answer, h]
  · obtain rfl := Host.Outcome.next.inj h
    constructor
    · rintro ⟨idle, en⟩
      simp [memWrite_env, idle, en]
    · intro collides
      simp [memWrite_env, contract, collides]

/-! ### The access of each phase -/

theorem accessesOf_append (tr es : List Event) : accessesOf (tr ++ es) = accessesOf tr ++ accessesOf es :=
  List.filterMap_append

/-- A DATA write's request word has the write bit (R86). -/
theorem not_dataWrite_lt (b : Byte) : ¬ (0x800#12 + b.setWidth 12 < 0x800#12) := by
  revert b; decide

/-- Settles O42: the events of each phase hold the request word the table gives it, with a response for a read. -/
theorem eachPhaseMakesItsOneAccess : Obligations.EachPhaseMakesItsOneAccess := by
  intro p s written
  refine ⟨_, exec_microOp (fun _ => written), ?_⟩
  rw [effect_microOp_trace, accessesOf_append]
  cases p with
  | idle => exact List.append_nil _
  | load => exact ⟨none, rfl, by simp [not_dataWrite_lt]⟩
  | drain | polling | escDrain | collect => exact ⟨some _, rfl, iff_of_true rfl (by decide)⟩
  | _ => exact ⟨none, rfl, by decide⟩

end Sys2Proof.Machine
end

section
/-! No step faults from the invariant, and a running call always has a next state (R66, R174). -/

namespace Sys2Proof.Machine

section
variable {s : State}

/-- The invariant has the operands of `phase` written, so its micro-operation completes. -/
theorem exec_microOp_of_inv (inv : s.Inv) : exec (microOp s.phase) s = .next (effect (microOp s.phase) s) :=
  exec_microOp (fun transfers => (inv.initialised transfers).2)

theorem settle_ne_fault {o : Host.Outcome State Fault Refusal} (h : ∀ f, o ≠ .fault f) (f : Fault) :
    settle o ≠ .fault f := by
  cases o with
  | fault g => exact absurd rfl (h g)
  | next | refused => exact nofun

theorem powerOnReset_ne_fault (f : Fault) : powerOnReset s ≠ .fault f := by
  unfold powerOnReset
  repeat' split
  all_goals exact nofun

theorem whenIdle_ne_fault {o : Host.Outcome State Fault Refusal} (h : ∀ f, o ≠ .fault f) (f : Fault) :
    whenIdle s o ≠ .fault f := by
  unfold whenIdle
  split
  · exact nofun
  · exact h f

/-- A command is accepted or refused (R100, R101). -/
theorem exec_command_ne_fault {w : BitVec 10} {i : Instr} (decoded : decodeCommand w = .ok i) (f : Fault) :
    exec i s ≠ .fault f := by
  rcases decodeCommand_cases decoded with rfl | rfl | rfl <;>
    refine whenIdle_ne_fault (fun g => ?_) f <;> split <;> exact nofun

end

/-- Settles O53: the faults are reads of call registers, which the invariant has written while a call runs. -/
theorem runningCallsNeverStop : Obligations.RunningCallsNeverStop := by
  intro s inv
  refine ⟨fun f => ?_, fun busy noPort noEvent => ?_⟩
  · unfold step
    split
    · exact settle_ne_fault powerOnReset_ne_fault f
    · split
      case h_2 => exact nofun
      case h_1 i decoded =>
        refine settle_ne_fault (fun g => ?_) f
        rcases fetch_cases inv.noBench with ⟨c, program, fetched, -⟩ | ⟨-, fetched, taken, -⟩
        · rw [fetched] at decoded
          exact exec_command_ne_fault decoded g
        · rw [fetched, decode_phaseCode] at decoded
          obtain rfl := Except.ok.inj decoded
          rw [taken, exec_microOp_of_inv inv]
          exact nofun
  · refine ⟨peripheralMove (effect (microOp s.phase) s), ?_⟩
    rw [step_of_noCommand noEvent noPort (.inl busy), exec_microOp_of_inv inv]
    rfl

end Sys2Proof.Machine
end

section
/-! Rules for whole calls against the environments of R69: what one step of a call does, steps put together, and the
parts a call is made of. -/

namespace Sys2Proof.Machine

/-! ### The reference environments -/

/-- The environments of R69, whose answers a step never changes. -/
def Env.reference : Env → Bool
  | .alwaysReady _ | .neverReady | .readyAtPoll _ _ => true
  | _ => false

/-- The byte a reference environment answers every DATA read with, where R69 gives one (`answer_data_of_dataByte`). -/
def Env.dataByte : Env → Option Byte
  | .alwaysReady d | .readyAtPoll _ d => some d
  | _ => none

section
variable {s : State}

theorem Env.not_isContract_of_reference {e : Env} (h : e.reference = true) : e.isContract = false := by
  cases e with
  | contract => cases h
  | _ => rfl

theorem answer_data_of_dataByte {d : Byte} (h : s.env.dataByte = some d) : s.answer .data = d := by
  cases e : s.env <;> rw [e] at h
  case alwaysReady | readyAtPoll => simpa [State.answer, e] using Option.some.inj h
  all_goals cases h

theorem peripheralMove_env_of_reference (h : s.env.reference = true) : (peripheralMove s).env = s.env := by
  rw [peripheralMove, driftLine_env, environmentMove]
  cases e : s.env with
  | bare | contract | script => rw [e] at h; cases h
  | _ => exact e

theorem effect_microOp_env_of_reference (h : s.env.reference = true) (p : Phase) :
    (effect (microOp p) s).env = s.env := by
  have read (l : Loc) : (memRead l s).env = s.env := by
    rw [memRead_env]
    cases e : s.env with
    | script => rw [e] at h; cases h
    | _ => rfl
  have write (l : Loc) (v : Byte) (u : State) (same : u.env = s.env) : (memWrite l v u).env = s.env := by
    rw [memWrite_env, same, Env.not_isContract_of_reference h]
    simp
  cases p with
  | idle => rfl
  | drain | escDrain | collect => exact read .data
  | polling =>
    obtain ⟨w, p, d, e⟩ := poll_frame s
    rw [microOp, effect, e]
    exact read .stat
  | escDis1 => exact write _ _ (s.emit _) rfl
  | _ => exact write _ _ s rfl

end

/-! ### One step of a call -/

/-- A call in course that nothing disturbs, before a reference environment. -/
structure Calling (s : State) : Prop where
  written : s.callWritten = true
  done : s.initDone = true
  noPort : s.port = none
  noEvent : s.powerOn = false
  reference : s.env.reference = true

/-- What a step of a running call leaves (`Calling.step`). -/
def advance (s : State) : State := peripheralMove (effect (microOp s.phase) s)

/-- `k` steps lead from `s` to `t` within one call and put the events `es` on the trace. -/
structure Leads (k : Nat) (es : List Event) (s t : State) : Prop where
  run : core.run k s = .next t
  keeps : KeepsCall { s with result := t.result } t
  env : t.env = s.env
  polls : t.polls = s.polls + pollCount es
  trace : t.trace = s.trace ++ es
  noAccept : ∀ e ∈ es, e.isAccept = false

theorem run_succ {s t : State} (h : step s = .next t) (k : Nat) : core.run (k + 1) s = core.run k t := by
  have h' : core.step s = .next t := h
  simp only [Host.Core.run, h']

theorem run_add {s t : State} {j : Nat} (h : core.run j s = .next t) (k : Nat) :
    core.run (j + k) s = core.run k t := by
  induction j generalizing s with
  | zero =>
    obtain rfl : s = t := Host.Outcome.next.inj h
    rw [Nat.zero_add]
  | succ j ih =>
    rw [Nat.succ_add]
    cases e : core.step s with
    | next u =>
      rw [run_succ e] at h
      rw [run_succ e, ih h]
    | fault | refused => simp only [Host.Core.run, e] at h; cases h

@[simp] theorem effect_microOp_program (p : Phase) (s : State) : (effect (microOp p) s).program = s.program := by
  cases p with
  | polling => exact (poll_keepsCall s).program
  | _ => simp [microOp, effect]

@[simp] theorem effect_microOp_powerOn (p : Phase) (s : State) : (effect (microOp p) s).powerOn = s.powerOn := by
  cases p with
  | polling => exact (poll_keepsCall s).powerOn
  | _ => simp [microOp, effect]

theorem dataWrite_ne_poll (b : Byte) : 0x800#12 + b.setWidth 12 ≠ 0x100#12 := by
  rw [← writeWord_data]
  exact writeWord_data_ne b (by decide)

/-- The environment's count of polls is that of the trace (R69). -/
theorem effect_microOp_polls (p : Phase) (s : State) :
    (effect (microOp p) s).polls = s.polls + pollCount (p.events s) := by
  cases p with
  | polling =>
    obtain ⟨w, p, d, h⟩ := poll_frame s
    rw [microOp, effect, h]
    rfl
  | load => simp [microOp, effect, Phase.events, pollCount, requestCount, dataWrite_ne_poll]
  | _ => simp [microOp, effect, Phase.events, pollCount, requestCount]

theorem events_noAccept (p : Phase) (s : State) : ∀ e ∈ p.events s, e.isAccept = false := by
  cases p <;> simp [Phase.events, Event.isAccept]

section
variable {s t u : State}

theorem Calling.step (call : Calling s) (busy : s.phase ≠ .idle) : Machine.step s = .next (advance s) := by
  rw [step_of_noCommand call.noEvent call.noPort (.inl busy), exec_microOp (fun _ => call.written)]
  rfl

theorem Leads.single (call : Calling s) (busy : s.phase ≠ .idle) : Leads 1 (s.phase.events s) s (advance s) where
  run := run_succ (call.step busy) 0
  keeps := by constructor <;> simp [advance, call.done]
  env := by
    have kept := effect_microOp_env_of_reference call.reference s.phase
    exact (peripheralMove_env_of_reference (kept ▸ call.reference)).trans kept
  polls := by rw [advance, peripheralMove_polls, effect_microOp_polls]
  trace := by rw [advance, peripheralMove_trace, effect_microOp_trace]
  noAccept := events_noAccept s.phase s

theorem pollCount_append (es fs : List Event) : pollCount (es ++ fs) = pollCount es + pollCount fs :=
  List.countP_append

theorem resetCount_append (es fs : List Event) : resetCount (es ++ fs) = resetCount es + resetCount fs :=
  List.countP_append

theorem Leads.trans {j k : Nat} {es fs : List Event} (h : Leads j es s t) (h' : Leads k fs t u) :
    Leads (j + k) (es ++ fs) s u where
  run := (run_add h.run k).trans h'.run
  keeps :=
    { variant := h'.keeps.variant.trans h.keeps.variant
      tx := h'.keeps.tx.trans h.keeps.tx
      result := rfl
      initDone := h'.keeps.initDone.trans h.keeps.initDone
      callWritten := h'.keeps.callWritten.trans h.keeps.callWritten
      params := h'.keeps.params.trans h.keeps.params
      program := h'.keeps.program.trans h.keeps.program
      port := h'.keeps.port.trans h.keeps.port
      powerOn := h'.keeps.powerOn.trans h.keeps.powerOn }
  env := h'.env.trans h.env
  polls := by rw [h'.polls, h.polls, pollCount_append, Nat.add_assoc]
  trace := by rw [h'.trace, h.trace, List.append_assoc]
  noAccept := fun e mem => (List.mem_append.mp mem).elim (h.noAccept e) (h'.noAccept e)

theorem Leads.calling {k : Nat} {es : List Event} (h : Leads k es s t) (call : Calling s) : Calling t where
  written := h.keeps.callWritten.trans call.written
  done := h.keeps.initDone.trans call.done
  noPort := h.keeps.port.trans call.noPort
  noEvent := h.keeps.powerOn.trans call.noEvent
  reference := h.env ▸ call.reference

theorem callTrace_append_noAccept {tr es : List Event} (h : ∀ e ∈ es, e.isAccept = false) :
    callTrace (tr ++ es) = callTrace tr ++ es := by
  induction es using List.reverseRecOn with
  | nil => simp
  | append_singleton es e ih =>
    rw [← List.append_assoc, callTrace_append, h e (by simp), if_neg Bool.false_ne_true,
      ih (fun e' mem => h e' (by simp [mem])), List.append_assoc]

/-- A step that is neither a poll nor the reload has the one successor of the table and keeps the counters. -/
theorem leads_advance (call : Calling s) {p q : Phase} (atPhase : s.phase = p) (next : successors p = [q])
    (notEscEn2 : p ≠ .escEn2) :
    Leads 1 (p.events s) s (advance s) ∧ (advance s).phase = q ∧ KeepsCounters s (advance s) := by
  subst atPhase
  have notIdle : s.phase ≠ .idle := fun h => by simp [h, successors] at next
  have notPolling : s.phase ≠ .polling := fun h => by simp [h, successors] at next
  have moved := effect_microOp_phase s.phase s notIdle
  rw [next, List.mem_singleton] at moved
  refine ⟨.single call notIdle, ?_, ?_, ?_⟩
  · rw [advance, peripheralMove_phase, moved]
  · rw [advance, peripheralMove_window, effect_microOp_window _ _ notPolling notEscEn2]
  · rw [advance, peripheralMove_esc, effect_microOp_esc _ _ notEscEn2]

theorem KeepsCounters.trans (h : KeepsCounters s t) (h' : KeepsCounters t u) : KeepsCounters s u :=
  ⟨h'.window.trans h.window, h'.esc.trans h.esc⟩

theorem advance_ssN (call : Calling s) : (advance s).ssN = s.phase.lineWrite.getD s.ssN := by
  have driven : lineUndriven (effect (microOp s.phase) s) = false := by simp [lineUndriven, call.done]
  rw [advance, State.ssN, peripheralMove_ssport driven]
  exact effect_microOp_ssN s.phase s

end

/-! ### The parts of a call -/

section
variable {s : State}

/-- The events from DRAIN to LOAD, with the byte DRAIN drops. -/
def launchEvents (dropped tx : Byte) : List Event :=
  [.access 0x000#12 (some dropped), .access 0xC00#12 none, .access (0x800#12 + tx.setWidth 12) none]

/-- From DRAIN to the first poll (R121 to R123). -/
theorem exists_leads_launch (call : Calling s) (drain : s.phase = .drain) :
    ∃ t, Leads 3 (launchEvents (s.answer .data) s.tx) s t ∧ t.phase = .polling ∧ KeepsCounters s t := by
  obtain ⟨drained, select, counters⟩ := leads_advance call drain rfl (by decide)
  obtain ⟨selected, load, counters'⟩ := leads_advance (drained.calling call) select rfl (by decide)
  have toLoad := drained.trans selected
  obtain ⟨loaded, polling, counters''⟩ := leads_advance (toLoad.calling call) load rfl (by decide)
  have whole := toLoad.trans loaded
  simp only [Phase.events, toLoad.keeps.tx] at whole
  exact ⟨_, whole, polling, (counters.trans counters').trans counters''⟩

/-- A poll with the flag set (R124). -/
theorem leads_poll_of_set (call : Calling s) (polling : s.phase = .polling) (flag : s.answer .stat = 0x01#8) :
    Leads 1 [.access 0x100#12 (some 0x01#8)] s (advance s) ∧ (advance s).phase = .succeeded ∧
      KeepsCounters s (advance s) := by
  have leads := Leads.single call (by rw [polling]; decide)
  have found : poll s = (memRead .stat s).goto .succeeded := if_pos (by rw [flag]; decide)
  simp only [polling, Phase.events, flag] at leads
  refine ⟨leads, ?_, ?_, ?_⟩ <;> simp [advance, polling, microOp, effect, found]

/-- A poll with the flag clear waits, escalates or raises Timeout (R124, R131). -/
theorem leads_poll_of_clear (call : Calling s) (polling : s.phase = .polling) (flag : s.answer .stat = 0x00#8)
    (windowPos : 1 ≤ s.window) :
    Leads 1 [.access 0x100#12 (some 0x00#8)] s (advance s) ∧ (advance s).window = s.window - 1 ∧
      (advance s).esc = s.esc ∧
      (advance s).phase =
        if 2 ≤ s.window then .polling else if s.esc < s.params.escalationMax then .escDis1 else .timedout := by
  have leads := Leads.single call (by rw [polling]; decide)
  have counted : poll s = countPoll (memRead .stat s) := if_neg (by rw [flag]; decide)
  simp only [polling, Phase.events, flag] at leads
  refine ⟨leads, ?_⟩
  have after : advance s = peripheralMove (countPoll (memRead .stat s)) := by
    rw [advance, polling, microOp, effect, counted]
  rw [after]
  rcases countPoll_cases (memRead .stat s) (by simpa using windowPos) with
    ⟨more, e⟩ | ⟨last, permitted, e⟩ | ⟨last, spent, e⟩ <;> rw [e]
  · rw [memRead_window] at more
    simp [more]
  · rw [memRead_window] at last
    rw [memRead_esc, memRead_params] at permitted
    simp [last, permitted]
  · rw [memRead_window] at last
    rw [memRead_esc, memRead_params, ← Nat.not_lt] at spent
    simp [raiseTimeout, last, spent]

/-- The environment answers every poll 0x00 while it has counted at least `first` and fewer than `last` polls. -/
def Env.NotReady (e : Env) (first last : Nat) : Prop :=
  ∀ u : State, u.env = e → first ≤ u.polls → u.polls < last → u.answer .stat = 0x00#8

theorem notReady_neverReady (first last : Nat) : Env.neverReady.NotReady first last := by
  intro u env _ _
  simp [State.answer, env]

theorem notReady_readyAtPoll {n last : Nat} (d : Byte) (before : last < n) (first : Nat) :
    (Env.readyAtPoll n d).NotReady first last := by
  intro u env _ counted
  have early : u.polls + 1 < n := by omega
  simp [State.answer, env, early]

/-- The events of a window that is used up. -/
def failedPolls (w : Nat) : List Event := List.replicate w (.access 0x100#12 (some 0x00#8))

/-- A polling window in which no poll succeeds: `window` polls, then a reset or Timeout, by `esc` (R124, R171). -/
theorem exists_leads_failedWindow (call : Calling s) (polling : s.phase = .polling) {w : Nat} (window : s.window = w)
    (windowPos : 1 ≤ w) (notReady : s.env.NotReady s.polls (s.polls + w)) :
    ∃ t, Leads w (failedPolls w) s t ∧ t.window = 0 ∧ t.esc = s.esc ∧
      t.phase = if s.esc < s.params.escalationMax then .escDis1 else .timedout := by
  induction w, windowPos using Nat.le_induction generalizing s with
  | base =>
    have flag : s.answer .stat = 0x00#8 := notReady s rfl (Nat.le_refl _) (by omega)
    obtain ⟨polled, windowAfter, escAfter, phaseAfter⟩ := leads_poll_of_clear call polling flag (by omega)
    rw [if_neg (by omega)] at phaseAfter
    exact ⟨_, polled, by omega, escAfter, phaseAfter⟩
  | succ w windowPos ih =>
    have flag : s.answer .stat = 0x00#8 := notReady s rfl (Nat.le_refl _) (by omega)
    obtain ⟨polled, windowAfter, escAfter, phaseAfter⟩ := leads_poll_of_clear call polling flag (by omega)
    rw [if_pos (by omega)] at phaseAfter
    have polls : (advance s).polls = s.polls + 1 := polled.polls
    have notReadyAfter : (advance s).env.NotReady (advance s).polls ((advance s).polls + w) :=
      fun u env lower upper => notReady u (env.trans polled.env) (by omega) (by omega)
    obtain ⟨t, leads, windowEnd, escEnd, phaseEnd⟩ :=
      ih (polled.calling call) phaseAfter (by omega) notReadyAfter
    have whole : Leads (1 + w) (failedPolls (w + 1)) s t := polled.trans leads
    rw [Nat.add_comm 1 w] at whole
    rw [escAfter, polled.keeps.params] at phaseEnd
    exact ⟨t, whole, windowEnd, escEnd.trans escAfter, phaseEnd⟩

/-- ESC_EN2 in a call with a reset still permitted (R132, R156). -/
theorem leads_reload (call : Calling s) (escEn2 : s.phase = .escEn2) (permitted : s.esc < s.params.escalationMax) :
    Leads 1 [.access 0xA01#12 none] s (advance s) ∧ (advance s).phase = .polling ∧
      (advance s).window = s.params.windowMax ∧ (advance s).esc = s.esc + 1 := by
  have leads := Leads.single call (by rw [escEn2]; decide)
  simp only [escEn2, Phase.events] at leads
  have incremented : incrementedEsc (memWrite .ctrl 0x01#8 s) = s.esc + 1 := by simp [incrementedEsc, permitted]
  refine ⟨leads, ?_, ?_, ?_⟩ <;> simp [advance, escEn2, microOp, effect, incremented]

/-- The events of one run of the Reset Escalator, with the byte it drops (R150). -/
def resetEvents (k : Nat) (dropped : Byte) : List Event :=
  [.resetBegin k, .access 0xA00#12 none, .access 0xA01#12 none, .access 0x000#12 (some dropped),
    .access 0x900#12 none, .access 0xA00#12 none, .access 0xA01#12 none]

/-- One run of the Reset Escalator (R151 to R156). -/
theorem exists_leads_reset (call : Calling s) (escDis1 : s.phase = .escDis1)
    (permitted : s.esc < s.params.escalationMax) :
    ∃ t v, Leads 6 (resetEvents (s.esc + 1) v) s t ∧ t.phase = .polling ∧ t.window = s.params.windowMax ∧
      t.esc = s.esc + 1 := by
  obtain ⟨disabled, escEn1, counters⟩ := leads_advance call escDis1 rfl (by decide)
  obtain ⟨enabled, escDrain, counters₁⟩ := leads_advance (disabled.calling call) escEn1 rfl (by decide)
  have toDrain := disabled.trans enabled
  obtain ⟨drained, escClr, counters₂⟩ := leads_advance (toDrain.calling call) escDrain rfl (by decide)
  have toClr := toDrain.trans drained
  obtain ⟨cleared, escDis2, counters₃⟩ := leads_advance (toClr.calling call) escClr rfl (by decide)
  have toDis2 := toClr.trans cleared
  obtain ⟨disabledAgain, escEn2, counters₄⟩ := leads_advance (toDis2.calling call) escDis2 rfl (by decide)
  have toEn2 := toDis2.trans disabledAgain
  have escKept := ((((counters.trans counters₁).trans counters₂).trans counters₃).trans counters₄).esc
  obtain ⟨reloaded, polling, window, esc⟩ :=
    leads_reload (toEn2.calling call) escEn2 (by rw [escKept, toEn2.keeps.params]; exact permitted)
  rw [toEn2.keeps.params] at window
  rw [escKept] at esc
  exact ⟨_, _, toEn2.trans reloaded, polling, window, esc⟩

/-- What R126 makes of the byte read, by the variant. -/
def Variant.outcome : Variant → Byte → Result
  | .receive, v => .byte v
  | .send, _ => .ack

theorem collected_eq (s : State) : collected s = s.variant.outcome (s.answer .data) := by
  unfold collected
  cases s.variant <;> rfl

theorem advance_result_of_collect (collect : s.phase = .collect) : (advance s).result = collected s := by
  simp [advance, collect, microOp, effect]

/-- The events from a poll with the flag set on, with the byte COLLECT reads and the result. -/
def successEvents (received : Byte) (r : Result) : List Event :=
  [.access 0x100#12 (some 0x01#8), .access 0xC01#12 none, .access 0x000#12 (some received), .result r]

/-- From a poll with the flag set to the result (R124 to R126). -/
theorem exists_leads_success (call : Calling s) (polling : s.phase = .polling) (flag : s.answer .stat = 0x01#8)
    {d : Byte} (data : s.env.dataByte = some d) :
    ∃ t, Leads 3 (successEvents d (s.variant.outcome d)) s t ∧ t.phase = .idle ∧ t.result = s.variant.outcome d ∧
      t.ssN = true ∧ KeepsCounters s t := by
  obtain ⟨polled, succeeded, counters⟩ := leads_poll_of_set call polling flag
  have call₁ := polled.calling call
  obtain ⟨raised, collect, counters₁⟩ := leads_advance call₁ succeeded rfl (by decide)
  have toCollect := polled.trans raised
  have call₂ := toCollect.calling call
  obtain ⟨ended, idle, counters₂⟩ := leads_advance call₂ collect rfl (by decide)
  have answer : (advance (advance s)).answer .data = d := answer_data_of_dataByte (toCollect.env ▸ data)
  have outcome : collected (advance (advance s)) = s.variant.outcome d := by
    rw [collected_eq, answer, toCollect.keeps.variant]
  have whole := toCollect.trans ended
  simp only [Phase.events, answer, outcome] at whole
  refine ⟨_, whole, idle, ?_, ?_, (counters.trans counters₁).trans counters₂⟩
  · rw [advance_result_of_collect collect, outcome]
  · rw [advance_ssN call₂, collect, advance_ssN call₁, succeeded]
    rfl

/-- Timeout's handler ends the call (R127, R177). -/
theorem exists_leads_timedout (call : Calling s) (timedout : s.phase = .timedout) :
    ∃ t, Leads 1 [.access 0xC01#12 none, .result .timeout] s t ∧ t.phase = .idle ∧ t.result = .timeout ∧
      t.ssN = true ∧ KeepsCounters s t := by
  obtain ⟨ended, idle, counters⟩ := leads_advance call timedout rfl (by decide)
  refine ⟨_, ended, idle, ?_, ?_, counters⟩
  · simp [advance, timedout, microOp, effect]
  · rw [advance_ssN call, timedout]
    rfl

end

/-! ### What the parts count -/

@[simp] theorem pollCount_launchEvents (dropped tx : Byte) : pollCount (launchEvents dropped tx) = 0 := by
  simp [pollCount, requestCount, launchEvents, dataWrite_ne_poll]

@[simp] theorem resetCount_launchEvents (dropped tx : Byte) : resetCount (launchEvents dropped tx) = 0 := rfl

@[simp] theorem pollCount_failedPolls (w : Nat) : pollCount (failedPolls w) = w := by
  simp [pollCount, requestCount, failedPolls, List.countP_replicate]

@[simp] theorem resetCount_failedPolls (w : Nat) : resetCount (failedPolls w) = 0 := by
  simp [resetCount, failedPolls, List.countP_replicate]

@[simp] theorem pollCount_resetEvents (k : Nat) (v : Byte) : pollCount (resetEvents k v) = 0 := rfl

@[simp] theorem resetCount_resetEvents (k : Nat) (v : Byte) : resetCount (resetEvents k v) = 1 := rfl

@[simp] theorem pollCount_successEvents (received : Byte) (r : Result) :
    pollCount (successEvents received r) = 1 := rfl

@[simp] theorem resetCount_successEvents (received : Byte) (r : Result) :
    resetCount (successEvents received r) = 0 := rfl

end Sys2Proof.Machine
end

section
/-! Whole calls against the environments of R69: S1, S3 and S4 of 95_test_vectors.md. -/

namespace Sys2Proof.Machine

/-! ### The acceptance -/

/-- An initialised IDLE state that nothing disturbs, before a reference environment. -/
structure Launchable (s : State) : Prop where
  idle : s.phase = .idle
  done : s.initDone = true
  noPort : s.port = none
  noEvent : s.powerOn = false
  reference : s.env.reference = true

/-- The state after the step that accepts a SEND or RECEIVE, `rest` being what is left to issue (`step_send`,
`step_receive`). -/
def accepted (c : BitVec 10) (v : Variant) (b : Byte) (rest : List (BitVec 10)) (s : State) : State :=
  peripheralMove (acceptTransfer c v b { s with program := rest })

theorem decode_sendWord (b : Byte) : decode (.command (0x200#10 + b.setWidth 10)) = .ok (.send b) := by
  revert b; decide

theorem commandWord_send (b : Byte) : commandWord 0b10#2 b = 0x200#10 + b.setWidth 10 := by
  revert b; decide

section
variable {s : State} {c : BitVec 10} {v : Variant} {b : Byte} {rest : List (BitVec 10)}

theorem Launchable.step_command (launch : Launchable s) (waiting : s.program = c :: rest) {i : Instr}
    (decoded : decode (.command c) = .ok i) : step s = settle (exec i { s with program := rest }) := by
  rw [← fetchWord_of_command launch.noPort launch.idle waiting] at decoded
  rw [step_of_decode launch.noEvent decoded, consumeWord_of_command launch.noPort launch.idle waiting]

theorem Launchable.step_send (launch : Launchable s) (waiting : s.program = (0x200#10 + b.setWidth 10) :: rest) :
    step s = .next (accepted (0x200#10 + b.setWidth 10) .send b rest s) := by
  rw [launch.step_command waiting (decode_sendWord b), ← commandWord_send]
  simp [exec, execSend, whenIdle, State.busy, launch.idle, launch.done, sendOperand, settle, accepted]

theorem Launchable.step_receive (launch : Launchable s) (waiting : s.program = 0x300#10 :: rest) :
    step s = .next (accepted 0x300#10 .receive s.params.dummyFill rest s) := by
  have word : commandWord 0b11#2 0#8 = 0x300#10 := by decide
  rw [launch.step_command waiting (i := .receive 0#8) rfl, ← word]
  simp [exec, execReceive, whenIdle, State.busy, launch.idle, launch.done, receiveOperand, settle, accepted]

theorem accepted_env (launch : Launchable s) : (accepted c v b rest s).env = s.env :=
  peripheralMove_env_of_reference launch.reference

theorem calling_accepted (launch : Launchable s) : Calling (accepted c v b rest s) where
  written := by simp [accepted]
  done := by simp [accepted, launch.done]
  noPort := by simp [accepted, launch.noPort]
  noEvent := by simp [accepted, launch.noEvent]
  reference := accepted_env launch ▸ launch.reference

/-- What the trace shows of a call that has led from its acceptance to `t`. -/
theorem callTrace_of_leads {k : Nat} {es : List Event} {t : State} (leads : Leads k es (accepted c v b rest s) t) :
    callTrace t.trace = es := by
  have before : callTrace (accepted c v b rest s).trace = [] := by simp [accepted]
  rw [leads.trace, callTrace_append_noAccept leads.noAccept, before, List.nil_append]

end

/-- The first poll of a call: what the acceptance and the launch leave. -/
structure FirstPoll (s : State) (v : Variant) (u : State) : Prop where
  calling : Calling u
  polling : u.phase = .polling
  window : u.window = s.params.windowMax
  esc : u.esc = 0
  polls : u.polls = 0
  env : u.env = s.env
  params : u.params = s.params
  variant : u.variant = v

theorem exists_leads_firstPoll {s : State} (c : BitVec 10) (v : Variant) (b : Byte) (rest : List (BitVec 10))
    (launch : Launchable s) :
    ∃ u, Leads 3 (launchEvents ((accepted c v b rest s).answer .data) b) (accepted c v b rest s) u ∧
      FirstPoll s v u := by
  have call : Calling (accepted c v b rest s) := calling_accepted launch
  obtain ⟨u, launched, polling, window, esc⟩ := exists_leads_launch call (by simp [accepted])
  have tx : (accepted c v b rest s).tx = b := by simp [accepted]
  rw [tx] at launched
  exact ⟨u, launched,
    { calling := launched.calling call
      polling := polling
      window := window.trans (by simp [accepted])
      esc := esc.trans (by simp [accepted])
      polls := by rw [launched.polls, pollCount_launchEvents]; simp [accepted]
      env := launched.env.trans (accepted_env launch)
      params := launched.keeps.params.trans (by simp [accepted])
      variant := launched.keeps.variant.trans (by simp [accepted]) }⟩

/-! ### AlwaysReady -/

/-- S1 from the launch state on, for either variant: the acceptance, the six accesses and the result. -/
theorem run_alwaysReady {s : State} {c : BitVec 10} {v : Variant} {b d : Byte} {rest : List (BitVec 10)}
    (launch : Launchable s) (env : s.env = .alwaysReady d) (accepts : step s = .next (accepted c v b rest s)) :
    ∃ t, core.run 7 s = .next t ∧ t.phase = .idle ∧ t.result = v.outcome d ∧ t.ssN = true ∧ t.program = rest ∧
      t.esc = 0 ∧ t.window = s.params.windowMax ∧
      t.trace = s.trace ++ [.accept c, .access 0x000#12 (some d), .access 0xC00#12 none,
        .access (0x800#12 + b.setWidth 12) none, .access 0x100#12 (some 0x01#8), .access 0xC01#12 none,
        .access 0x000#12 (some d), .result (v.outcome d)] := by
  obtain ⟨u, launched, first⟩ := exists_leads_firstPoll c v b rest launch
  have envAfter : u.env = .alwaysReady d := first.env.trans env
  obtain ⟨t, succeeded, idle, result, high, window, esc⟩ :=
    exists_leads_success first.calling first.polling (d := d) (by simp [State.answer, envAfter])
      (by rw [envAfter]; rfl)
  have dropped : (accepted c v b rest s).answer .data = d := by simp [State.answer, accepted_env launch, env]
  rw [dropped] at launched
  rw [first.variant] at succeeded result
  have whole := launched.trans succeeded
  refine ⟨t, (run_succ accepts 6).trans whole.run, idle, result, high, ?_, esc.trans first.esc,
    window.trans first.window, ?_⟩
  · rw [whole.keeps.program]; simp [accepted]
  · rw [whole.trace]; simp [accepted, launchEvents, successEvents]

/-- Settles O58: S1 for each variant, after its acceptance. -/
theorem alwaysReadyTransfersSucceed : Obligations.AlwaysReadyTransfersSucceed := by
  intro s d v rest idle done noPort noEvent env _
  have launch : Launchable s := ⟨idle, done, noPort, noEvent, by rw [env]; rfl⟩
  exact ⟨fun waiting => run_alwaysReady launch env (launch.step_send waiting),
    fun waiting => run_alwaysReady launch env (launch.step_receive waiting)⟩

/-! ### NeverReady -/

/-- A failed window with the reset after it. -/
theorem exists_leads_failedWindow_reset {s : State} (call : Calling s) (polling : s.phase = .polling) {w : Nat}
    (window : s.window = w) (windowPos : 1 ≤ w) (notReady : s.env.NotReady s.polls (s.polls + w))
    (permitted : s.esc < s.params.escalationMax) :
    ∃ t v, Leads (w + 6) (failedPolls w ++ resetEvents (s.esc + 1) v) s t ∧ t.phase = .polling ∧
      t.window = s.params.windowMax ∧ t.esc = s.esc + 1 := by
  obtain ⟨u, failed, -, esc, phase⟩ := exists_leads_failedWindow call polling window windowPos notReady
  rw [if_pos permitted] at phase
  obtain ⟨t, v, reset, polling', window', esc'⟩ :=
    exists_leads_reset (failed.calling call) phase (by rw [esc, failed.keeps.params]; exact permitted)
  rw [esc] at reset esc'
  exact ⟨t, v, failed.trans reset, polling', window'.trans (congrArg _ failed.keeps.params), esc'⟩

/-- Against NeverReady every window fails, and `r` resets are left to make before Timeout (R158, R171). -/
theorem exists_leads_neverReady (r : Nat) {s : State} (call : Calling s) (polling : s.phase = .polling)
    (env : s.env = .neverReady) (window : s.window = s.params.windowMax) (windowPos : 1 ≤ s.params.windowMax)
    (left : s.esc + r = s.params.escalationMax) :
    ∃ t es, Leads ((r + 1) * s.params.windowMax + 6 * r) es s t ∧ t.phase = .timedout ∧ t.window = 0 ∧
      t.esc = s.params.escalationMax ∧ resetCount es = r ∧ pollCount es = (r + 1) * s.params.windowMax := by
  have notReady : s.env.NotReady s.polls (s.polls + s.params.windowMax) := env ▸ notReady_neverReady _ _
  induction r generalizing s with
  | zero =>
    obtain ⟨t, failed, windowEnd, esc, phase⟩ := exists_leads_failedWindow call polling window windowPos notReady
    rw [if_neg (by omega)] at phase
    exact ⟨t, _, by simpa using failed, phase, windowEnd, by omega, resetCount_failedPolls _, by simp⟩
  | succ r ih =>
    obtain ⟨u, v, failed, polling', window', esc'⟩ :=
      exists_leads_failedWindow_reset call polling window windowPos notReady (by omega)
    have params : u.params = s.params := failed.keeps.params
    rw [← params] at window' windowPos left
    obtain ⟨t, es, leads, phase, windowEnd, esc, resets, polls⟩ :=
      ih (failed.calling call) polling' (failed.env.trans env) window' windowPos (by omega)
        (failed.env.trans env ▸ notReady_neverReady _ _)
    have whole := failed.trans leads
    rw [params] at whole esc polls
    have steps : s.params.windowMax + 6 + ((r + 1) * s.params.windowMax + 6 * r) =
        (r + 1 + 1) * s.params.windowMax + 6 * (r + 1) := by ring
    refine ⟨t, _, steps ▸ whole, phase, windowEnd, esc, ?_, ?_⟩
    · simp [resetCount_append, resets, Nat.add_comm]
    · simp only [pollCount_append, pollCount_failedPolls, pollCount_resetEvents, polls]
      ring

/-- Settles O59: the acceptance, the launch, the failed windows with their resets, and Timeout's handler. -/
theorem neverReadyTransfersTimeOut : Obligations.NeverReadyTransfersTimeOut := by
  intro s b rest inv idle done noPort noEvent env waiting
  have launch : Launchable s := ⟨idle, done, noPort, noEvent, by rw [env]; rfl⟩
  have windowPos : 1 ≤ s.params.windowMax := by simpa [Config.Params.legal] using inv.legal
  obtain ⟨u, launched, first⟩ := exists_leads_firstPoll (0x200#10 + b.setWidth 10) .send b rest launch
  obtain ⟨w, es, failed, timedout, window, esc, resets, polls⟩ :=
    exists_leads_neverReady s.params.escalationMax first.calling first.polling (first.env.trans env)
      (first.window.trans (by rw [first.params])) (by rw [first.params]; exact windowPos)
      (by rw [first.esc, first.params, Nat.zero_add])
  rw [first.params] at failed esc polls
  obtain ⟨t, ended, idleAgain, result, high, counters⟩ :=
    exists_leads_timedout (failed.calling first.calling) timedout
  have whole := (launched.trans failed).trans ended
  refine ⟨t, ?_, idleAgain, result, high, counters.esc.trans esc, counters.window.trans window, ?_, ?_⟩
  · rw [← whole.run, ← run_succ (launch.step_send waiting)]
    congr 1
    omega
  · rw [callTrace_of_leads whole, resetCount_append, resetCount_append, resetCount_launchEvents, resets, Nat.zero_add]
    rfl
  · rw [callTrace_of_leads whole, pollCount_append, pollCount_append, pollCount_launchEvents, polls, Nat.zero_add]
    rfl

/-! ### StallThenRecover -/

/-- Settles O60: the acceptance, the launch, one failed window with its reset, and a poll that finds the flag set. -/
theorem stalledReceiveRecoversAfterOneReset : Obligations.StalledReceiveRecoversAfterOneReset := by
  intro s d rest inv idle done noPort noEvent env resetPermitted waiting
  have launch : Launchable s := ⟨idle, done, noPort, noEvent, by rw [env]; rfl⟩
  have windowPos : 1 ≤ s.params.windowMax := by simpa [Config.Params.legal] using inv.legal
  obtain ⟨u, launched, first⟩ := exists_leads_firstPoll 0x300#10 .receive s.params.dummyFill rest launch
  have envFirst : u.env = .readyAtPoll (s.params.windowMax + 1) d := first.env.trans env
  have notReady : u.env.NotReady u.polls (u.polls + s.params.windowMax) := by
    rw [envFirst]
    exact notReady_readyAtPoll d (by rw [first.polls]; omega) _
  obtain ⟨w, dropped, failed, polling, window, esc⟩ :=
    exists_leads_failedWindow_reset first.calling first.polling first.window windowPos notReady
      (by rw [first.esc, first.params]; exact resetPermitted)
  have envAfter : w.env = .readyAtPoll (s.params.windowMax + 1) d := failed.env.trans envFirst
  have polls : w.polls = s.params.windowMax := by simp [failed.polls, first.polls, pollCount_append]
  obtain ⟨t, succeeded, idleAgain, result, high, counters⟩ :=
    exists_leads_success (failed.calling first.calling) polling (d := d) (by simp [State.answer, envAfter, polls])
      (by rw [envAfter]; rfl)
  have variant : w.variant = .receive := failed.keeps.variant.trans first.variant
  rw [variant] at succeeded result
  have whole := (launched.trans failed).trans succeeded
  refine ⟨t, ?_, idleAgain, result, high, ?_, ?_, ?_, ?_⟩
  · rw [← whole.run, ← run_succ (launch.step_receive waiting)]
    congr 1
    omega
  · rw [counters.esc, esc, first.esc]
  · rw [counters.window, window, first.params]
  · simp [callTrace_of_leads whole, resetCount_append]
  · simp [callTrace_of_leads whole, pollCount_append]

end Sys2Proof.Machine
end

section
/-! The four word formats (R80 to R91): a word is its fields, the decoder and the encoder are inverse to each other, a
row of the opcode table holds words of its instruction only, and the words no instruction has are rejected by name. -/

namespace Sys2Proof

open Machine

/-! ### A word and its fields -/

section
variable {op : BitVec 2} {data : Byte}

@[simp] theorem commandWord_op : (commandWord op data).extractLsb' 8 2 = op := BitVec.extractLsb'_append_eq_left

@[simp] theorem commandWord_data : (commandWord op data).extractLsb' 0 8 = data := BitVec.extractLsb'_append_eq_right

theorem commandWord_eq {w : BitVec 10} (opField : (w.extractLsb' 8 2).toNat = op.toNat) :
    commandWord op (w.extractLsb' 0 8) = w := by
  obtain rfl := BitVec.eq_of_toNat_eq opField
  exact BitVec.extractLsb'_append_extractLsb' (w := 2)

@[simp] theorem resultWord_rstat : (resultWord op data).extractLsb' 8 2 = op := BitVec.extractLsb'_append_eq_left

@[simp] theorem resultWord_rdata : (resultWord op data).extractLsb' 0 8 = data := BitVec.extractLsb'_append_eq_right

theorem resultWord_eq {w : BitVec 10} (rstat : (w.extractLsb' 8 2).toNat = op.toNat)
    (rdata : w.extractLsb' 0 8 = data) : resultWord op data = w := by
  subst rdata
  exact commandWord_eq rstat

end

section
variable {write : Bool} {addr : BitVec 3} {data : Byte}

theorem requestWord_write : (requestWord write addr data).getLsbD 11 = write := by
  simp only [requestWord, BitVec.getLsbD_append]
  cases write <;> rfl

@[simp] theorem requestWord_addr : (requestWord write addr data).extractLsb' 8 3 = addr := by
  rw [requestWord, BitVec.extractLsb'_append_eq_of_le (Nat.le_refl 8)]
  exact BitVec.extractLsb'_append_eq_right

@[simp] theorem requestWord_wdata : (requestWord write addr data).extractLsb' 0 8 = data :=
  BitVec.extractLsb'_append_eq_right

theorem requestWord_eq {w : BitVec 12} (writeBit : w.getLsbD 11 = write)
    (addrField : (w.extractLsb' 8 3).toNat = addr.toNat) (wdata : w.extractLsb' 0 8 = data) :
    requestWord write addr data = w := by
  obtain rfl := BitVec.eq_of_toNat_eq addrField
  subst writeBit wdata
  have bit : BitVec.ofBool (w.getLsbD 11) = w.extractLsb' 11 1 := by
    ext k hk
    obtain rfl : k = 0 := by omega
    simp
  have top : w.extractLsb' 11 1 ++ w.extractLsb' 8 3 = w.extractLsb' 8 4 :=
    BitVec.extractLsb'_append_extractLsb'_eq_extractLsb' rfl
  rw [requestWord, bit, top]
  exact BitVec.extractLsb'_append_extractLsb' (w := 4)

end

/-- A byte with bits 7 to 1 clear is its bit 0. -/
theorem eq_zext8_of_high_clear {b : Byte} (high : b.extractLsb' 1 7 = 0#7) : b = zext8 (b.getLsbD 0) := by
  revert b; decide

/-! ### Decoder and encoder are inverse -/

theorem decode_encode (i : Instr) : decode (encode i) = .ok i := by
  cases i with
  | init | send | receive => simp [encode, decode, decodeCommand]
  | resByte => simp [encode, decode, decodeResult]
  | wrData => simp only [encode, decode, decodeRequest, requestWord_write, requestWord_addr, requestWord_wdata]; rfl
  | wrEn on | setSs on => cases on <;> rfl
  | _ => rfl

theorem encode_of_decodeCommand {w : BitVec 10} {i : Instr} (decoded : decodeCommand w = .ok i) :
    encode i = .command w := by
  simp only [decodeCommand] at decoded
  split at decoded <;> cases decoded
  all_goals
    next op => exact congrArg _ (commandWord_eq op)

theorem encode_of_decodeResult {w : BitVec 10} {i : Instr} (decoded : decodeResult w = .ok i) :
    encode i = .result w := by
  simp only [decodeResult] at decoded
  split at decoded <;> cases decoded
  case h_3 rstat => exact congrArg _ (resultWord_eq rstat rfl)
  all_goals
    next rstat rdata => exact congrArg _ (resultWord_eq rstat (eq_of_beq rdata))

theorem encode_of_decodeRequest {w : BitVec 12} {i : Instr} (decoded : decodeRequest w = .ok i) :
    encode i = .request w := by
  simp only [decodeRequest] at decoded
  split at decoded
  case h_3 write addr =>
    cases decoded
    exact congrArg TableWord.request (requestWord_eq write addr rfl)
  case h_8 => cases decoded
  case h_5 write addr | h_7 write addr =>
    split at decoded <;> cases decoded
    next high => exact congrArg TableWord.request (requestWord_eq write addr (eq_zext8_of_high_clear high))
  all_goals
    next write addr =>
    split at decoded <;> cases decoded
    next clear => exact congrArg TableWord.request (requestWord_eq write addr clear)

theorem encode_microOp (p : Phase) : encode (microOp p) = .phase (phaseCode p) := by cases p <;> rfl

theorem encode_of_decodePhase {w : BitVec 5} {i : Instr} (decoded : decodePhase w = .ok i) : encode i = .phase w := by
  obtain ⟨p, -, rfl⟩ := phaseOfCode_of_decode (w := w) decoded
  obtain rfl := Except.ok.inj ((decode_phaseCode p).symm.trans decoded)
  exact encode_microOp p

theorem encode_of_decode {t : TableWord} {i : Instr} (decoded : decode t = .ok i) : encode i = t := by
  cases t with
  | command w => exact encode_of_decodeCommand decoded
  | result w => exact encode_of_decodeResult decoded
  | request w => exact encode_of_decodeRequest decoded
  | phase w => exact encode_of_decodePhase decoded

/-- Settles O1: each format's decoder reads a word into the fields the encoder puts together. -/
theorem decodeInvertsEncode : Obligations.DecodeInvertsEncode := by
  refine fun t i => ⟨encode_of_decode, ?_⟩
  rintro rfl
  exact decode_encode i

/-! ### The rows of the opcode table -/

namespace Row

variable {n : Nat} {r : Row n} {w : BitVec n}

/-- A field that the mask covers is the pattern's. -/
theorem field_of_matches (h : r.matches w = true) (start len : Nat)
    (covered : r.mask.extractLsb' start len = BitVec.allOnes len) :
    w.extractLsb' start len = r.pattern.extractLsb' start len := by
  rw [← eq_of_beq h, BitVec.extractLsb'_and, covered, BitVec.and_allOnes]

theorem bit_of_matches (h : r.matches w = true) (k : Nat) (covered : r.mask.getLsbD k = true) :
    w.getLsbD k = r.pattern.getLsbD k := by
  rw [← eq_of_beq h, BitVec.getLsbD_and, covered, Bool.and_true]

/-- A row whose mask is full holds its pattern only. -/
theorem eq_pattern_of_matches (h : r.matches w = true) (full : r.mask = .allOnes n) : r.pattern = w := by
  rw [← eq_of_beq h, full, BitVec.and_allOnes]

end Row

theorem rowsOf_encode (i : Instr) : rowsOf (encode i) = [i.mnemonic] := by
  cases i with
  | init d => exact Laws.EncodesToItsRow.init d
  | send d => exact Laws.EncodesToItsRow.send d
  | receive d => exact Laws.EncodesToItsRow.receive d
  | resByte v => exact Laws.EncodesToItsRow.resByte v
  | wrData b => exact Laws.EncodesToItsRow.wrData b
  | wrEn e => exact Laws.EncodesToItsRow.wrEn e
  | setSs l => exact Laws.EncodesToItsRow.setSs l
  | _ => decide

theorem exists_encode_of_commandRow {w : BitVec 10} {r : Row 10} (row : r ∈ commandRows) (h : r.matches w = true) :
    ∃ i, encode i = .command w := by
  have word {op : BitVec 2} (covered : r.mask.extractLsb' 8 2 = .allOnes 2)
      (pattern : r.pattern.extractLsb' 8 2 = op) : commandWord op (w.extractLsb' 0 8) = w :=
    commandWord_eq (congrArg _ ((Row.field_of_matches h 8 2 covered).trans pattern))
  simp only [commandRows, List.mem_cons, List.not_mem_nil, or_false] at row
  rcases row with rfl | rfl | rfl
  · exact ⟨.init _, congrArg _ (word rfl rfl)⟩
  · exact ⟨.send _, congrArg _ (word rfl rfl)⟩
  · exact ⟨.receive _, congrArg _ (word rfl rfl)⟩

theorem exists_encode_of_resultRow {w : BitVec 10} {r : Row 10} (row : r ∈ resultRows) (h : r.matches w = true) :
    ∃ i, encode i = .result w := by
  simp only [resultRows, List.mem_cons, List.not_mem_nil, or_false] at row
  rcases row with rfl | rfl | rfl | rfl
  · exact ⟨.resNone, congrArg _ (Row.eq_pattern_of_matches h rfl)⟩
  · exact ⟨.resAck, congrArg _ (Row.eq_pattern_of_matches h rfl)⟩
  · exact ⟨.resByte _, congrArg _ (resultWord_eq (congrArg _ (Row.field_of_matches h 8 2 rfl)) rfl)⟩
  · exact ⟨.resTimeout, congrArg _ (Row.eq_pattern_of_matches h rfl)⟩

theorem exists_encode_of_requestRow {w : BitVec 12} {r : Row 12} (row : r ∈ requestRows) (h : r.matches w = true) :
    ∃ i, encode i = .request w := by
  have bitOperand {addr : BitVec 3} (write : r.pattern.getLsbD 11 = true) (addrField : r.pattern.extractLsb' 8 3 = addr)
      (high : r.pattern.extractLsb' 1 7 = 0#7) (mask : r.mask = 0xFFE#12) :
      requestWord true addr (zext8 ((w.extractLsb' 0 8).getLsbD 0)) = w := by
    refine requestWord_eq ((Row.bit_of_matches h 11 (mask ▸ rfl)).trans write)
      (congrArg _ ((Row.field_of_matches h 8 3 (mask ▸ rfl)).trans addrField)) (eq_zext8_of_high_clear ?_)
    rw [BitVec.extractLsb'_extractLsb'_of_le (by decide), Row.field_of_matches h 1 7 (mask ▸ rfl), high]
  simp only [requestRows, List.mem_cons, List.not_mem_nil, or_false] at row
  rcases row with rfl | rfl | rfl | rfl | rfl | rfl | rfl
  · exact ⟨.rdData, congrArg _ (Row.eq_pattern_of_matches h rfl)⟩
  · exact ⟨.wrData _, congrArg TableWord.request
      (requestWord_eq (Row.bit_of_matches h 11 rfl) (congrArg _ (Row.field_of_matches h 8 3 rfl)) rfl)⟩
  · exact ⟨.rdStat, congrArg _ (Row.eq_pattern_of_matches h rfl)⟩
  · exact ⟨.clrStat, congrArg _ (Row.eq_pattern_of_matches h rfl)⟩
  · exact ⟨.wrEn _, congrArg _ (bitOperand rfl rfl rfl rfl)⟩
  · exact ⟨.wrCfg, congrArg _ (Row.eq_pattern_of_matches h rfl)⟩
  · exact ⟨.setSs _, congrArg _ (bitOperand rfl rfl rfl rfl)⟩

theorem exists_encode_of_phaseRow {w : BitVec 5} {r : Row 5} (row : r ∈ phaseRows) (h : r.matches w = true) :
    ∃ i, encode i = .phase w := by
  have coded : ∀ q ∈ phaseRows, q.mask = .allOnes 5 ∧ decodes (.phase q.pattern) = true := by decide
  obtain ⟨full, known⟩ := coded r row
  rw [Row.eq_pattern_of_matches h full] at known
  unfold decodes at known
  split at known
  · next i decoded => exact ⟨i, encode_of_decode decoded⟩
  · cases known

theorem rowNames_eq_nil {n : Nat} {rows : List (Row n)} {w : BitVec n} (h : ∀ r ∈ rows, ¬ r.matches w = true) :
    (rows.filter (·.matches w)).map (·.mnemonic) = [] := by
  rw [List.map_eq_nil_iff, List.filter_eq_nil_iff]
  exact h

theorem encode_ne_of_decode_error {t : TableWord} {e : DecodeError} (failed : decode t = .error e) (i : Instr) :
    encode i ≠ t := by
  rintro rfl
  rw [decode_encode] at failed
  cases failed

theorem rowsOf_of_decode_error {t : TableWord} {e : DecodeError} (failed : decode t = .error e) : rowsOf t = [] := by
  have noInstr (h : ∃ i, encode i = t) : False := h.elim (encode_ne_of_decode_error failed)
  cases t with
  | command w => exact rowNames_eq_nil fun _ row matched => noInstr (exists_encode_of_commandRow row matched)
  | result w => exact rowNames_eq_nil fun _ row matched => noInstr (exists_encode_of_resultRow row matched)
  | request w => exact rowNames_eq_nil fun _ row matched => noInstr (exists_encode_of_requestRow row matched)
  | phase w => exact rowNames_eq_nil fun _ row matched => noInstr (exists_encode_of_phaseRow row matched)

/-- Settles O2: a word that decodes is its instruction's word, which has one row; a word of a row is an instruction's
word, so it decodes. -/
theorem decoderFollowsTheOpcodeTable : Obligations.DecoderFollowsTheOpcodeTable := by
  refine fun t => ⟨fun i decoded => ?_, fun _ => rowsOf_of_decode_error⟩
  rw [← encode_of_decode decoded, rowsOf_encode]

/-! ### The reserved words -/

/-- The one name a format's decoder rejects by (R90). -/
def rejectionName : TableWord → DecodeError
  | .command _ => .reservedCommand
  | .result _ => .unproducedResult
  | .request _ => .unissuedRequest
  | .phase _ => .reservedPhase

theorem eq_rejectionName {t : TableWord} {e : DecodeError} (failed : decode t = .error e) : e = rejectionName t := by
  cases t with
  | command w | result w | phase w =>
    simp only [decode, decodeCommand, decodeResult, decodePhase] at failed
    split at failed <;> cases failed
    rfl
  | request w =>
    simp only [decode, decodeRequest] at failed
    repeat' split at failed
    all_goals cases failed
    all_goals rfl

/-- A word that is no instruction's word is rejected by its format's name. -/
theorem decode_eq_error {t : TableWord} (noInstr : ∀ i, encode i ≠ t) : decode t = .error (rejectionName t) := by
  cases h : decode t with
  | ok i => exact absurd (encode_of_decode h) (noInstr i)
  | error e => rw [eq_rejectionName h]

/-- A Format H or Q word as a number (R81, R84). -/
theorem commandWord_toNat (op : BitVec 2) (data : Byte) :
    (commandWord op data).toNat = 256 * op.toNat + data.toNat := by
  rw [commandWord, BitVec.toNat_append, ← Nat.shiftLeft_add_eq_or_of_lt data.isLt, Nat.shiftLeft_eq, Nat.mul_comm]

theorem commandWord_eq_add (op : BitVec 2) (data : Byte) :
    commandWord op data = BitVec.ofNat 10 (256 * op.toNat) + data.setWidth 10 := by
  apply BitVec.eq_of_toNat_eq
  rw [commandWord_toNat, BitVec.toNat_add, BitVec.toNat_ofNat, BitVec.toNat_setWidth]
  omega

theorem le_of_encode_command {i : Instr} {w : BitVec 10} (word : encode i = .command w) : 0x100#10 ≤ w := by
  have le {op : BitVec 2} (data : Byte) (pos : 1 ≤ op.toNat) : 0x100#10 ≤ commandWord op data := by
    rw [BitVec.le_def, commandWord_toNat]
    exact (Nat.mul_le_mul_left 256 pos).trans (Nat.le_add_right ..)
  cases i <;> cases word
  all_goals exact le _ (by decide)

theorem resultFields_of_encode {i : Instr} {w : BitVec 10} (word : encode i = .result w) :
    w.extractLsb' 8 2 = 2#2 ∨ w.extractLsb' 0 8 = 0#8 := by
  cases i <;> cases word
  case resByte => exact .inl resultWord_rstat
  all_goals exact .inr resultWord_rdata

/-- The request words without a byte operand (R88). -/
def fixedRequests : List (BitVec 12) :=
  [0x000#12, 0x100#12, 0x900#12, 0xA00#12, 0xA01#12, 0xB00#12, 0xC00#12, 0xC01#12]

/-- The request words SPIM issues: eight, and the DATA writes (R88). -/
theorem requestWord_cases {i : Instr} {w : BitVec 12} (word : encode i = .request w) :
    w ∈ fixedRequests ∨ (0x800#12 ≤ w ∧ w < 0x900#12) := by
  cases i <;> cases word
  case wrData b =>
    have word : requestWord true 0#3 b = 0x800#12 + b.setWidth 12 := writeWord_data b
    rw [word]
    exact .inr ⟨by bv_omega, by bv_omega⟩
  case wrEn on => cases on <;> exact .inl (by decide)
  case setSs on => cases on <;> exact .inl (by decide)
  all_goals exact .inl (by decide)

/-- A set of request words that has neither one of the eight nor a DATA write is rejected (R90 (c)). -/
theorem decode_unissuedRequest (Reserved : BitVec 12 → Prop) (notFixed : fixedRequests.Forall (¬ Reserved ·))
    (notData : ∀ v, 0x800#12 ≤ v → v < 0x900#12 → ¬ Reserved v) {w : BitVec 12} (reserved : Reserved w) :
    decode (.request w) = .error .unissuedRequest := by
  refine decode_eq_error fun i word => ?_
  rcases requestWord_cases word with fixed | ⟨low, high⟩
  · exact List.forall_iff_forall_mem.mp notFixed w fixed reserved
  · exact notData w low high reserved

theorem decode_reservedCommand {w : BitVec 10} (reserved : w < 0x100#10) :
    decode (.command w) = .error .reservedCommand :=
  decode_eq_error fun _ word => BitVec.not_lt.mpr (le_of_encode_command word) reserved

/-- Settles O3: no instruction has a word in any of these ranges. -/
theorem reservedWordsAreRejectedByName : Obligations.ReservedWordsAreRejectedByName := by
  have addrOfData (v : BitVec 12) (low : 0x800#12 ≤ v) (high : v < 0x900#12) : v.extractLsb' 8 3 = 0#3 := by
    apply BitVec.eq_of_toNat_eq
    rw [BitVec.extractLsb'_toNat]
    bv_omega
  refine ⟨fun w => decode_reservedCommand,
    fun w notByte nonzero => decode_eq_error fun _ word => (resultFields_of_encode word).elim notByte nonzero,
    fun w high => decode_unissuedRequest (fun v => 5#3 ≤ v.extractLsb' 8 3) (by decide) ?_ high,
    fun w read high => decode_unissuedRequest (fun v => v < 0x800#12 ∧ 2#3 ≤ v.extractLsb' 8 3) (by decide) ?_
      ⟨read, high⟩,
    fun w read payload => decode_unissuedRequest (fun v => v < 0x800#12 ∧ v.extractLsb' 0 8 ≠ 0#8) (by decide) ?_
      ⟨read, payload⟩,
    fun w low high payload => decode_unissuedRequest (fun v => 0x900#12 ≤ v ∧ v < 0xA00#12 ∧ v ≠ 0x900#12)
      (by decide) ?_ ⟨low, high, payload⟩,
    fun w low high => decode_unissuedRequest (fun v => 0xA01#12 < v ∧ v < 0xB00#12) (by decide) ?_ ⟨low, high⟩,
    fun w low high => decode_unissuedRequest (fun v => 0xB00#12 < v ∧ v < 0xC00#12) (by decide) ?_ ⟨low, high⟩,
    fun w low => decode_unissuedRequest (fun v => 0xC01#12 < v) (by decide) ?_ low, by decide⟩
  · intro v low high
    rw [addrOfData v low high]
    decide
  all_goals
    intro v low high reserved
    bv_omega

/-! ### The words of the tables -/

/-- Settles O4: each word is evaluated. -/
theorem specWordsDecode : Obligations.SpecWordsDecode := by
  unfold Obligations.SpecWordsDecode
  decide

end Sys2Proof
end

section
/-! The host commands' acceptance and the refusal of the reserved command word (R90 (a), R101, R106, R107), and the
result words as instructions (R84, R85; log 14). -/

namespace Sys2Proof.Machine

section
variable {s : State}

theorem whenIdle_of_idle (idle : s.phase = .idle) (o : Host.Outcome State Fault Refusal) : whenIdle s o = o := by
  simp [whenIdle, State.busy, idle]

theorem step_of_decode_error {e : DecodeError} (noEvent : s.powerOn = false)
    (failed : decode (fetchWord s) = .error e) : step s = .refused (refusalOf e) := by
  simp [step, noEvent, failed]

theorem exec_send (idle : s.phase = .idle) (done : s.initDone = true) (b : Byte) :
    exec (.send b) s = .next (acceptTransfer (commandWord 0b10#2 b) .send b s) := by
  simp only [exec, execSend, whenIdle_of_idle idle, done, if_true, sendOperand]

theorem exec_receive (idle : s.phase = .idle) (done : s.initDone = true) (d : Byte) :
    exec (.receive d) s = .next (acceptTransfer (commandWord 0b11#2 d) .receive s.params.dummyFill s) := by
  simp only [exec, execReceive, whenIdle_of_idle idle, done, if_true, receiveOperand]

end

/-- Settles O9: the word is the next one either way, and it does not decode. -/
theorem reservedCommandIsRefused : Obligations.ReservedCommandIsRefused := by
  intro s c reserved noEvent presented
  have fetched : fetchWord s = .command c := by
    rcases presented with onPort | ⟨noPort, idle, cs, waiting⟩
    · exact fetchWord_of_port onPort
    · exact fetchWord_of_command noPort idle waiting
  exact step_of_decode_error noEvent (fetched ▸ decode_reservedCommand reserved)

/-- Settles O14: the acceptance of a transfer, with the command word as the spec's number. -/
theorem sendIsAccepted : Obligations.SendIsAccepted := by
  intro s b idle done
  rw [exec_send idle done, commandWord_send]
  rfl

/-- Settles O15: the acceptance of a transfer, with the command word as the spec's number. -/
theorem receiveIsAccepted : Obligations.ReceiveIsAccepted := by
  intro s d idle done
  have word : commandWord 0b11#2 d = 0x300#10 + d.setWidth 10 := commandWord_eq_add 0b11#2 d
  rw [exec_receive idle done, word]
  rfl

/-- Settles O17: a BYTE word has `rstat` 2 and the TIMEOUT word 3, and each instruction writes its word. -/
theorem resultWordsAreWritten : Obligations.ResultWordsAreWritten := by
  refine ⟨fun _ => rfl, fun _ => rfl, fun _ _ => rfl, fun _ => rfl, rfl, rfl, rfl,
    fun v => ⟨commandWord_eq_add 0b10#2 v, fun same => ?_⟩⟩
  have rstat : 0b10#2 = 0b11#2 := by
    rw [← resultWord_rstat (op := 0b10#2) (data := v), ← resultWord_rstat (op := 0b11#2) (data := 0#8)]
    exact congrArg _ same
  exact absurd rstat (by decide)

end Sys2Proof.Machine
end

section
/-! Rules for the host-command family: the step of a waiting command, the acceptance of each, the words they come as
(R82, R100 to R107), and the step of a micro-operation. -/

namespace Sys2Proof.Machine

theorem commandWord_init (d : Byte) : commandWord 0b01#2 d = 0x100#10 + d.setWidth 10 := commandWord_eq_add 0b01#2 d

theorem commandWord_receive (d : Byte) : commandWord 0b11#2 d = 0x300#10 + d.setWidth 10 :=
  commandWord_eq_add 0b11#2 d

theorem decode_initWord (d : Byte) : decode (.command (0x100#10 + d.setWidth 10)) = .ok (.init d) :=
  commandWord_init d ▸ decode_encode (.init d)

theorem decode_receiveWord (d : Byte) : decode (.command (0x300#10 + d.setWidth 10)) = .ok (.receive d) :=
  commandWord_receive d ▸ decode_encode (.receive d)

section
variable {s : State}

theorem exec_init (idle : s.phase = .idle) (notDone : s.initDone = false) (d : Byte) :
    exec (.init d) s = .next ((acceptCommand (commandWord 0b01#2 d) s).goto .initCfg) := by
  simp only [exec, execInit, whenIdle_of_idle idle, notDone, Bool.false_eq_true, if_false]

/-- The step that issues the caller's next command, where it is accepted (R100). -/
theorem step_of_command {c : BitVec 10} {rest : List (BitVec 10)} {i : Instr} {t : State}
    (noEvent : s.powerOn = false) (noPort : s.port = none) (idle : s.phase = .idle) (waiting : s.program = c :: rest)
    (decoded : decode (.command c) = .ok i) (ran : exec i { s with program := rest } = .next t) :
    step s = .next (peripheralMove t) := by
  rw [stepFollowsPhaseOrIssuesTheNextCommand.1 s c rest i noEvent noPort idle waiting decoded, ran]
  rfl

theorem step_send {b : Byte} {rest : List (BitVec 10)} (noEvent : s.powerOn = false) (noPort : s.port = none)
    (idle : s.phase = .idle) (done : s.initDone = true) (waiting : s.program = (0x200#10 + b.setWidth 10) :: rest) :
    step s = .next (accepted (0x200#10 + b.setWidth 10) .send b rest s) :=
  step_of_command noEvent noPort idle waiting (decode_sendWord b)
    (sendIsAccepted { s with program := rest } b idle done)

theorem step_receive {d : Byte} {rest : List (BitVec 10)} (noEvent : s.powerOn = false) (noPort : s.port = none)
    (idle : s.phase = .idle) (done : s.initDone = true) (waiting : s.program = (0x300#10 + d.setWidth 10) :: rest) :
    step s = .next (accepted (0x300#10 + d.setWidth 10) .receive s.params.dummyFill rest s) :=
  step_of_command noEvent noPort idle waiting (decode_receiveWord d)
    (receiveIsAccepted { s with program := rest } d idle done)

/-- The step of a busy phase whose operands have been written (R31, R37). -/
theorem step_eq_advance (noEvent : s.powerOn = false) (noPort : s.port = none) (busy : s.phase ≠ .idle)
    (written : s.phase.transferring = true → s.callWritten = true) : step s = .next (advance s) := by
  rw [step_of_noCommand noEvent noPort (.inl busy), exec_microOp written]
  rfl

end

section
variable (s : State)

@[simp] theorem advance_variant : (advance s).variant = s.variant := by simp [advance]
@[simp] theorem advance_tx : (advance s).tx = s.tx := by simp [advance]
@[simp] theorem advance_initDone : (advance s).initDone = (s.initDone || decide (s.phase = .initEn)) := by
  simp [advance]

@[simp] theorem advance_params : (advance s).params = s.params := by simp [advance]
@[simp] theorem advance_program : (advance s).program = s.program := by simp [advance]
@[simp] theorem advance_port : (advance s).port = s.port := by simp [advance]
@[simp] theorem advance_powerOn : (advance s).powerOn = s.powerOn := by simp [advance]

theorem advance_trace : (advance s).trace = s.trace ++ s.phase.events s := by
  rw [advance, peripheralMove_trace, effect_microOp_trace]

end

end Sys2Proof.Machine
end

section
/-! The statements of the host-command family about single steps: the acceptance of INIT and its three
micro-operations, the commands refused out of place, and the result that stands (R101 to R105, R108). -/

namespace Sys2Proof.Machine

/-- Settles O13: the acceptance of INIT, with the command word as the spec's number. -/
theorem initIsAccepted : Obligations.InitIsAccepted := by
  intro s d idle notDone
  rw [exec_init idle notDone, commandWord_init]
  rfl

/-! ### Commands out of place -/

section
variable {s : State}

theorem whenIdle_of_busy (busy : s.phase ≠ .idle) (o : Host.Outcome State Fault Refusal) :
    whenIdle s o = .refused .busy := by
  simp [whenIdle, State.busy, busy]

/-- A host command is refused as busy before anything else is looked at (R101; log 17). -/
theorem exec_command_of_busy {w : BitVec 10} {i : Instr} (decoded : decodeCommand w = .ok i)
    (busy : s.phase ≠ .idle) : exec i s = .refused .busy := by
  rcases decodeCommand_cases decoded with rfl | rfl | rfl <;> exact whenIdle_of_busy busy _

end

/-- Every command word from 0x100 on is a host command's (R82). -/
theorem exists_decodeCommand {w : BitVec 10} (h : 0x100#10 ≤ w) : ∃ i, decodeCommand w = .ok i := by
  unfold decodeCommand
  split
  · exact ⟨_, rfl⟩
  · exact ⟨_, rfl⟩
  · exact ⟨_, rfl⟩
  · next notInit notSend notReceive =>
    simp only [BitVec.extractLsb'_toNat, Nat.shiftRight_eq_div_pow, Nat.reducePow, imp_false]
      at notInit notSend notReceive
    bv_omega

/-- Settles O10: a busy command is refused by `whenIdle`, and in IDLE `init_done` decides. -/
theorem commandsOutOfPlaceAreRefused : Obligations.CommandsOutOfPlaceAreRefused := by
  refine ⟨fun s d busy => ?_, fun s c busy noEvent presented isCommand => ?_, fun s d idle notDone => ?_,
    fun s d idle done => ?_⟩
  · exact ⟨whenIdle_of_busy busy _, whenIdle_of_busy busy _, whenIdle_of_busy busy _⟩
  · obtain ⟨i, decoded⟩ := exists_decodeCommand isCommand
    have fetched : decode (fetchWord s) = .ok i := fetchWord_of_port presented ▸ decoded
    have taken : (consumeWord s).phase ≠ .idle := by simpa only [consumeWord, presented] using busy
    rw [step_of_decode noEvent fetched, exec_command_of_busy decoded taken]
    rfl
  · simp only [exec, execSend, execReceive, whenIdle_of_idle idle, notDone]
    exact ⟨rfl, rfl⟩
  · simp only [exec, execInit, whenIdle_of_idle idle, done]
    rfl

/-! ### The micro-operations of INIT -/

/-- Settles O24: the write of CFG, with the successor of the phase. -/
theorem initCfgWritesTheConfiguration : Obligations.InitCfgWritesTheConfiguration := by
  intro s
  exact ⟨_, rfl, rfl, memWrite_trace .cfg 0x00#8 s, memWrite_loc .cfg 0x00#8 s (l' := .cfg) (by decide) (by decide),
    keepsBytesExcept_setLoc s .cfg _, (keepsCall_memWrite .cfg _ s).goto _, (keepsCounters_memWrite .cfg _ s).goto _,
    (keepsExchange_memWrite _ s (by decide) (by decide)).goto _⟩

/-- Settles O25: the write of SSPORT, with the successor of the phase. -/
theorem initSsDeassertsTheLine : Obligations.InitSsDeassertsTheLine := by
  intro s
  exact ⟨_, rfl, rfl, memWrite_trace .ssport _ s, memWrite_loc_same s .ssport _ (by decide) (by decide) (by decide),
    memWrite_ssport_ssN s true, keepsBytesExcept_setLoc s .ssport _, (keepsCall_memWrite .ssport _ s).goto _,
    (keepsCounters_memWrite .ssport _ s).goto _, (keepsExchange_memWrite _ s (by decide) (by decide)).goto _⟩

/-- Settles O26: the enabling write of CTRL, then `init_done` and the return to the caller. -/
theorem initEnEnablesAndFinishes : Obligations.InitEnEnablesAndFinishes := by
  intro s
  obtain ⟨kept, keptUnlessBare⟩ := keepsBytesExcept_ctrl 0x01#8 s
  obtain ⟨inflight, out⟩ := keepsExchange_enable s
  obtain ⟨window, esc⟩ := keepsCounters_memWrite .ctrl 0x01#8 s
  refine ⟨_, rfl, rfl, rfl, rfl, memWrite_trace .ctrl _ s,
    memWrite_loc_same s .ctrl _ (by decide) (by decide) (by decide), memWrite_ctrl_en s true, kept, keptUnlessBare, ?_,
    ⟨window, esc⟩, ⟨inflight, out⟩⟩
  constructor <;> simp

/-! ### The idle round -/

/-- Settles O45: in IDLE with nothing to issue only the peripheral moves, and it writes no register of SPIM. -/
theorem resultStandsUntilTheNextCommand : Obligations.ResultStandsUntilTheNextCommand := by
  intro s t idle noPort noEvent noProgram stepped
  obtain ⟨-, moved⟩ := stepFollowsPhaseOrIssuesTheNextCommand.2.2 s noEvent noPort idle noProgram
  obtain rfl := Host.Outcome.next.inj (moved.symm.trans stepped)
  exact ⟨peripheralMove_result s, (peripheralMove_phase s).trans idle, peripheralMove_trace s⟩

end Sys2Proof.Machine
end

section
/-! INIT from acceptance to the launch state (R102 to R105, R204). -/

namespace Sys2Proof.Machine

section
variable (s : State)

theorem advance_cfg : (advance s).loc .cfg = if s.phase = .initCfg then s.params.cfgInit else s.loc .cfg := by
  rw [advance, peripheralMove_cfg, effect_microOp_cfg]

theorem advance_en : (advance s).en = s.phase.enableWrite.getD s.en := by
  rw [advance, peripheralMove_en, effect_microOp_en]

variable {s}

/-- The line after a step is what the micro-operation drives it to, once INIT_SS has run (R62, R203). -/
theorem advance_ssN_of_driven (driven : lineUndriven (advance s) = false) :
    (advance s).ssN = s.phase.lineWrite.getD s.ssN := by
  have drivenBefore : lineUndriven (effect (microOp s.phase) s) = false := by
    simpa [lineUndriven, advance] using driven
  rw [advance, State.ssN, peripheralMove_ssport drivenBefore]
  exact effect_microOp_ssN s.phase s

/-- A micro-operation of INIT completes and goes to its one successor with the result it found (R120). -/
theorem step_of_initialising {p q : Phase} (noEvent : s.powerOn = false) (noPort : s.port = none)
    (atPhase : s.phase = p) (inits : p.initialising = true) (next : successors p = [q]) :
    step s = .next (advance s) ∧ (advance s).phase = q ∧ (advance s).result = s.result := by
  subst atPhase
  have busy : s.phase ≠ .idle := fun idle => by simp [idle, Phase.initialising] at inits
  have moved := effect_microOp_phase s.phase s busy
  rw [next, List.mem_singleton] at moved
  refine ⟨step_eq_advance noEvent noPort busy fun transfers => ?_, ?_, ?_⟩
  · simp [Phase.transferring, inits] at transfers
  · rw [advance, peripheralMove_phase, moved]
  · rw [advance, peripheralMove_result]
    refine effect_microOp_result _ _ ?_ ?_ <;> intro h <;> simp [h, Phase.initialising] at inits

/-- From INIT_CFG to the launch state (R103 to R105). -/
theorem run_initSequence (noEvent : s.powerOn = false) (noPort : s.port = none) (initCfg : s.phase = .initCfg) :
    ∃ t, core.run 3 s = .next t ∧ t.phase = .idle ∧ t.initDone = true ∧ t.result = s.result ∧ t.en = true ∧
      t.ssN = true ∧ t.loc .cfg = s.params.cfgInit ∧ t.program = s.program ∧
      t.trace = s.trace ++ [.access 0xB00#12 none, .access 0xC01#12 none, .access 0xA01#12 none] := by
  obtain ⟨ran₁, initSs, result₁⟩ := step_of_initialising noEvent noPort initCfg rfl rfl
  obtain ⟨ran₂, initEn, result₂⟩ := step_of_initialising (s := advance s) (by simpa) (by simpa) initSs rfl rfl
  obtain ⟨ran₃, idle, result₃⟩ :=
    step_of_initialising (s := advance (advance s)) (by simpa) (by simpa) initEn rfl rfl
  have done : (advance (advance (advance s))).initDone = true := by simp [initEn]
  refine ⟨_, ?_, idle, done, result₃.trans (result₂.trans result₁), ?_, ?_, ?_, ?_, ?_⟩
  · rw [run_succ ran₁, run_succ ran₂, run_succ ran₃]
    rfl
  · rw [advance_en, initEn]
    rfl
  · rw [advance_ssN_of_driven (by rw [lineUndriven, done]; rfl), initEn,
      advance_ssN_of_driven (by simp [lineUndriven, initEn]), initSs]
    rfl
  · simp [advance_cfg, initEn, initSs, initCfg]
  · simp
  · simp [advance_trace, initEn, initSs, initCfg, Phase.events]

end

/-- The state after the step that accepts INIT, `rest` being what is left to issue (`step_init`). -/
def acceptedInit (c : BitVec 10) (rest : List (BitVec 10)) (s : State) : State :=
  peripheralMove ((acceptCommand c { s with program := rest }).goto .initCfg)

theorem step_init {s : State} {d : Byte} {rest : List (BitVec 10)} (noEvent : s.powerOn = false)
    (noPort : s.port = none) (idle : s.phase = .idle) (notDone : s.initDone = false)
    (waiting : s.program = (0x100#10 + d.setWidth 10) :: rest) :
    step s = .next (acceptedInit (0x100#10 + d.setWidth 10) rest s) :=
  step_of_command noEvent noPort idle waiting (decode_initWord d)
    (initIsAccepted { s with program := rest } d idle notDone)

/-- Settles O16: the step that accepts INIT, then its three micro-operations. -/
theorem initRunsToTheLaunchState : Obligations.InitRunsToTheLaunchState := by
  intro s d rest idle notDone noPort noEvent waiting
  obtain ⟨t, ran, idleAgain, done, result, en, high, configured, program, trace⟩ :=
    run_initSequence (s := acceptedInit (0x100#10 + d.setWidth 10) rest s) (by simpa [acceptedInit])
      (by simpa [acceptedInit]) (by simp [acceptedInit])
  refine ⟨t, (run_succ (step_init noEvent noPort idle notDone waiting) 3).trans ran, idleAgain, done, ?_, en, high,
    ?_, ?_, ?_⟩
  · simpa [acceptedInit] using result
  · simpa [acceptedInit] using configured
  · simpa [acceptedInit] using program
  · simpa [acceptedInit] using trace

end Sys2Proof.Machine
end

section
/-! SEND and RECEIVE are one algorithm (R109). Two runs are compared by what `Twins` asks to be equal, their `shared`
part: every operation of a transfer acts on that part alone, and the events it emits are twins. -/

namespace Sys2Proof.Machine

/-- What the two runs share: the state with the five fields blanked in which `Twins` lets them differ
(`rest_iff_shared_eq`). -/
def State.shared (s : State) : State :=
  { s with variant := .send, tx := 0#8, out := 0#8, result := .none, trace := [] }

section
variable {s t : State}

/-- `Twins.rest` says that the shared parts are equal. -/
theorem rest_iff_shared_eq :
    { t with variant := s.variant, tx := s.tx, out := s.out, result := s.result, trace := s.trace } = s ↔
      t.shared = s.shared :=
  ⟨fun rest => (congrArg State.shared rest :),
    fun same => congrArg
      (fun u : State =>
        { u with variant := s.variant, tx := s.tx, out := s.out, result := s.result, trace := s.trace }) same⟩

theorem phase_of_shared_eq (h : t.shared = s.shared) : t.phase = s.phase := congrArg (·.phase) h

theorem esc_of_shared_eq (h : t.shared = s.shared) : t.esc = s.esc := congrArg (·.esc) h

/-- A read is answered out of the shared part (R67). -/
theorem answer_of_shared_eq (h : t.shared = s.shared) (l : Loc) : t.answer l = s.answer l := congrArg (·.answer l) h

end

/-! ### Every operation acts on the shared part -/

section
variable (s : State)

@[simp] theorem shared_shared : s.shared.shared = s.shared := rfl
@[simp] theorem shared_goto (p : Phase) : (s.goto p).shared = s.shared.goto p := rfl
@[simp] theorem shared_emit (e : Event) : (s.emit e).shared = s.shared := rfl
@[simp] theorem shared_setInitDone : s.setInitDone.shared = s.shared.setInitDone := rfl
@[simp] theorem shared_reloadRetry : (reloadRetry s).shared = reloadRetry s.shared := rfl

theorem shared_writeEnable (v : Byte) : (writeEnable v s).shared = writeEnable v s.shared := by
  have sameEnv : s.shared.env = s.env := rfl
  cases e : s.env <;> simp only [writeEnable, sameEnv, e] <;> rfl

theorem shared_complete (v : Byte) : (complete v s).shared = complete v s.shared :=
  apply_ite State.shared (s.inflight && s.en) _ _

theorem shared_contractMove (plan : List (Option Byte)) :
    (contractMove plan s).shared = contractMove plan s.shared := by
  match plan with
  | none :: rest => rfl
  | some v :: rest => exact shared_complete { s with env := .contract rest } v
  | [] =>
    have drawn := shared_complete { s with draws := s.draws + 1 } (Config.freeByte s.draws)
    exact (apply_ite State.shared (Config.freeBool s.draws) _ _).trans (if_congr Iff.rfl drawn rfl)

theorem shared_environmentMove : (environmentMove s).shared = environmentMove s.shared := by
  have sameEnv : s.shared.env = s.env := rfl
  simp only [environmentMove, sameEnv]
  cases s.env with
  | contract plan => exact shared_contractMove s plan
  | _ => rfl

theorem shared_driftLine : (driftLine s).shared = driftLine s.shared := apply_ite State.shared (lineUndriven s) _ _

theorem shared_peripheralMove : (peripheralMove s).shared = peripheralMove s.shared := by
  rw [peripheralMove, shared_driftLine, shared_environmentMove, peripheralMove]

@[simp] theorem shared_memWrite_ctrl (v : Byte) : (memWrite .ctrl v s).shared = writeEnable v s.shared :=
  shared_writeEnable s v

theorem shared_countPoll : (countPoll s).shared = countPoll s.shared :=
  (apply_ite State.shared (decrementedWindow s = 0) _ _).trans
    (if_congr Iff.rfl (apply_ite State.shared (s.esc < s.params.escalationMax) _ _) rfl)

theorem shared_poll : (poll s).shared = (poll s.shared).shared := by
  simp only [poll, apply_ite State.shared, shared_countPoll]
  rfl

/-- `tx` goes into the exchange only, and what is posted into `result` and the trace: none of it is shared. -/
theorem shared_effect (p : Phase) : (effect (microOp p) s).shared = (effect (microOp p) s.shared).shared := by
  cases p with
  | polling => exact shared_poll s
  | initEn | escDis1 | escEn1 | escDis2 | escEn2 => simp [microOp, effect]
  | _ => rfl

end

section
variable {s t : State}

theorem shared_advance (h : t.shared = s.shared) : (advance t).shared = (advance s).shared := by
  rw [advance, advance, shared_peripheralMove, shared_peripheralMove, phase_of_shared_eq h, shared_effect t, h,
    ← shared_effect]

/-- The events of the two runs in one phase: they differ in the payload of LOAD's WR_DATA and in COLLECT's RESULT. -/
theorem events_twins (h : t.shared = s.shared) (send : s.variant = .send) (receive : t.variant = .receive) (p : Phase) :
    List.Forall₂ (TwinEvent s.tx t.tx) (p.events s) (p.events t) := by
  have refl (es : List Event) : List.Forall₂ (TwinEvent s.tx t.tx) es es := List.forall₂_same.mpr fun e _ => .same e
  have answer (l : Loc) := answer_of_shared_eq h l
  cases p with
  | load =>
    rw [Phase.events, Phase.events, ← writeWord_data, ← writeWord_data]
    exact .cons .load .nil
  | collect =>
    rw [Phase.events, Phase.events, collected_eq, collected_eq, send, receive, answer]
    exact .cons (.same _) (.cons (.success _) .nil)
  | drain | polling | escDrain => simpa only [Phase.events, answer] using refl _
  | escDis1 => simpa only [Phase.events, esc_of_shared_eq h] using refl _
  | _ => exact refl _

theorem twins_advance {xs ys : List Event} (twins : Twins xs ys s t) : Twins xs ys (advance s) (advance t) := by
  obtain ⟨es, fs, left, right, agree⟩ := twins.trace
  have same : t.shared = s.shared := rest_iff_shared_eq.mp twins.rest
  refine ⟨rest_iff_shared_eq.mpr (shared_advance same), (advance_variant s).trans twins.send,
    (advance_variant t).trans twins.receive, es ++ s.phase.events s, fs ++ t.phase.events t, ?_, ?_, ?_⟩
  · rw [advance_trace, left, List.append_assoc]
  · rw [advance_trace, right, List.append_assoc]
  · rw [advance_tx, advance_tx, phase_of_shared_eq same]
    exact List.rel_append agree (events_twins same twins.send twins.receive s.phase)

end

theorem twins_accepted (s : State) (c c' : BitVec 10) (b b' : Byte) (rest : List (BitVec 10)) :
    Twins (s.trace ++ [.accept c]) (s.trace ++ [.accept c']) (accepted c .send b rest s)
      (accepted c' .receive b' rest s) where
  rest := by
    rw [rest_iff_shared_eq, accepted, accepted, shared_peripheralMove, shared_peripheralMove]
    rfl
  send := by simp [accepted]
  receive := by simp [accepted]
  trace := ⟨[], [], by simp [accepted], by simp [accepted], .nil⟩

/-- Settles O56: both acceptances leave the same shared part (`twins_accepted`), and a step of either run acts on it
alone (`twins_advance`). -/
theorem sendAndReceiveRunOneAlgorithm : Obligations.SendAndReceiveRunOneAlgorithm := by
  refine ⟨fun s b d rest idle done noPort noEvent => ?_,
    fun xs ys s t s' twins transfers written noPort noEvent stepped => ?_⟩
  · refine ⟨_, _,
      step_send (s := { s with program := (0x200#10 + b.setWidth 10) :: rest }) noEvent noPort idle done rfl,
      step_receive (s := { s with program := (0x300#10 + d.setWidth 10) :: rest }) noEvent noPort idle done rfl,
      ?_, ?_, ?_, twins_accepted s _ _ _ _ rest⟩
    all_goals simp [accepted]
  · have busy : s.phase ≠ .idle := fun idle => by rw [idle] at transfers; cases transfers
    have same : t.shared = s.shared := rest_iff_shared_eq.mp twins.rest
    obtain rfl : advance s = s' := by
      rw [step_eq_advance noEvent noPort busy fun _ => written] at stepped
      exact Host.Outcome.next.inj stepped
    refine ⟨advance t, step_eq_advance ?_ ?_ ?_ fun _ => ?_, twins_advance twins⟩
    · exact (congrArg (·.powerOn) same).trans noEvent
    · exact (congrArg (·.port) same).trans noPort
    · exact phase_of_shared_eq same ▸ busy
    · exact (congrArg (·.callWritten) same).trans written

end Sys2Proof.Machine
end

section
/-! Rules for the transfer-engine family: what a poll and ESC_EN2 leave in the counters, and what has to be shown of a
claim about a call for every step to keep it. -/

namespace Sys2Proof.Machine

/-! ### The counters of the Retry State -/

section
variable {s : State}

/-- The counters around a poll (R36). -/
theorem counters_of_polling (inv : s.Inv) (polls : s.phase = .polling ∨ s.phase = .collect) :
    1 ≤ s.window ∧ s.window ≤ s.params.windowMax ∧ s.esc ≤ s.params.escalationMax := by
  have counters := inv.counters
  rcases polls with phase | phase <;> simpa only [CountersOk, phase] using counters

/-- The counters of a running Reset Escalator (R36). -/
theorem counters_of_escalating (inv : s.Inv) (escalates : s.phase.escalating = true) :
    s.window = 0 ∧ s.esc < s.params.escalationMax := by
  have counters := inv.counters
  unfold CountersOk at counters
  cases phase : s.phase <;> rw [phase] at escalates
  case escDis1 | escEn1 | escDrain | escClr | escDis2 | escEn2 => simpa only [phase] using counters
  all_goals cases escalates

theorem poll_of_set (flag : answerDone (s.answer .stat) = true) :
    (poll s).phase = .succeeded ∧ (poll s).window = s.window := by
  rw [poll, if_pos flag]
  exact ⟨rfl, memRead_window .stat s⟩

theorem poll_of_clear (flag : answerDone (s.answer .stat) = false) (windowPos : 1 ≤ s.window) :
    (poll s).window = s.window - 1 ∧
      (poll s).phase =
        if 2 ≤ s.window then .polling else if s.esc < s.params.escalationMax then .escDis1 else .timedout := by
  have counted : poll s = countPoll (memRead .stat s) := if_neg (by simp [flag])
  rw [counted]
  rcases countPoll_cases (memRead .stat s) (by simpa using windowPos) with
    ⟨more, e⟩ | ⟨last, permitted, e⟩ | ⟨last, spent, e⟩ <;> rw [e]
  · rw [memRead_window] at more
    simp [more]
  · rw [memRead_window] at last
    rw [memRead_esc, memRead_params] at permitted
    simp [last, permitted]
  · rw [memRead_window] at last
    rw [memRead_esc, memRead_params, ← Nat.not_lt] at spent
    simp [raiseTimeout, last, spent]

/-- From the invariant a poll has four outcomes: success, another poll, a reset, Timeout (R36, R124). -/
theorem poll_next (inv : s.Inv) (polling : s.phase = .polling) :
    ((poll s).phase = .succeeded ∧ (poll s).window = s.window) ∨
    ((poll s).phase = .polling ∧ s.window = (poll s).window + 1) ∨
    ((poll s).phase = .escDis1 ∧ (poll s).window = 0 ∧ s.window = 1 ∧ s.esc < s.params.escalationMax) ∨
    ((poll s).phase = .timedout ∧ (poll s).window = 0 ∧ s.window = 1) := by
  obtain ⟨windowPos, -, -⟩ := counters_of_polling inv (.inl polling)
  cases flag : answerDone (s.answer .stat)
  case true => exact .inl (poll_of_set flag)
  case false =>
    obtain ⟨window, phase⟩ := poll_of_clear flag windowPos
    split at phase
    · exact .inr (.inl ⟨phase, by omega⟩)
    split at phase
    · next permitted => exact .inr (.inr (.inl ⟨phase, by omega, by omega, permitted⟩))
    · exact .inr (.inr (.inr ⟨phase, by omega, by omega⟩))

/-- ESC_EN2 where a reset was still permitted (R132). -/
theorem effect_escEn2_esc (permitted : s.esc < s.params.escalationMax) : (effect .escEn2 s).esc = s.esc + 1 := by
  simp [effect, incrementedEsc, permitted]

/-- COLLECT never posts TIMEOUT (R126). -/
theorem collected_ne_timeout (s : State) : collected s ≠ .timeout := by
  rw [collected_eq]
  cases s.variant <;> nofun

end

/-! ### Claims about a call -/

/-- A claim `running` about a transfer in course and a claim `finished` about the last one while its result stands. -/
def ClaimsOfCall (running finished : State → Prop) (s : State) : Prop :=
  (s.phase.transferring = true → running s) ∧ (s.phase = .idle → s.result ≠ .none → finished s)

/-- What has to be shown of two claims about a call: the acceptance gives the first, the micro-operations keep it, the
two that end the call turn it into the second, and the peripheral's move keeps both. -/
structure KeptByACall (running finished : State → Prop) : Prop where
  accept : ∀ c v b s, running (acceptTransfer c v b s)
  operation : ∀ s : State, s.Inv → s.phase.transferring = true → running s →
    (effect (microOp s.phase) s).phase ≠ .idle → running (effect (microOp s.phase) s)
  collect : ∀ s : State, s.Inv → s.phase = .collect → running s → finished (effect .collect s)
  timedout : ∀ s : State, s.Inv → s.phase = .timedout → running s → finished (effect .timedout s)
  moveRunning : ∀ s, running s → running (peripheralMove s)
  moveFinished : ∀ s, finished s → finished (peripheralMove s)

section
variable {running finished : State → Prop} {s t : State}

/-- A transfer ends in COLLECT or TIMEDOUT (R120). -/
theorem Phase.ends_of_idle_mem_successors {p : Phase} (transfers : p.transferring = true)
    (next : Phase.idle ∈ successors p) : p = .collect ∨ p = .timedout := by
  revert transfers next
  cases p <;> decide

theorem claimsOfCall_effect (kept : KeptByACall running finished) (inv : s.Inv)
    (claims : ClaimsOfCall running finished s) : ClaimsOfCall running finished (effect (microOp s.phase) s) := by
  by_cases idle : s.phase = .idle
  · rw [idle]
    exact claims
  have next := effect_microOp_phase s.phase s idle
  constructor
  · intro nextTransfers
    have transfers := Phase.transferring_of_mem_successors idle next nextTransfers
    have busy : (effect (microOp s.phase) s).phase ≠ .idle := fun h => by
      rw [h] at nextTransfers
      cases nextTransfers
    exact kept.operation s inv transfers (claims.1 transfers) busy
  · intro ended hasResult
    by_cases transfers : s.phase.transferring = true
    · have run := claims.1 transfers
      rcases Phase.ends_of_idle_mem_successors transfers (ended ▸ next) with collect | timedout
      · rw [collect]
        exact kept.collect s inv collect run
      · rw [timedout]
        exact kept.timedout s inv timedout run
    · refine absurd ((effect_microOp_result s.phase s ?_ ?_).trans (inv.noResult (.inl idle))) hasResult <;>
        exact fun h => transfers (h ▸ rfl)

theorem claimsOfCall_spimMove (kept : KeptByACall running finished) (inv : s.Inv)
    (claims : ClaimsOfCall running finished s) (move : SpimMove s t) : ClaimsOfCall running finished t := by
  cases move with
  | powerOn _ accepted =>
    obtain ⟨-, -, rfl⟩ := powerOnReset_next accepted
    exact ⟨nofun, fun _ hasResult => absurd rfl hasResult⟩
  | init => exact ⟨nofun, nofun⟩
  | transfer c v b => exact ⟨fun _ => kept.accept c v b _, nofun⟩
  | microOp => exact claimsOfCall_effect kept inv claims

/-- Every step keeps two such claims. -/
theorem claimsOfCall_step (kept : KeptByACall running finished) (inv : s.Inv)
    (claims : ClaimsOfCall running finished s) (h : step s = .next t) : ClaimsOfCall running finished t := by
  obtain ⟨u, move, rfl⟩ := step_spimMove inv.noBench h
  obtain ⟨run, fin⟩ := claimsOfCall_spimMove kept inv claims move
  rw [ClaimsOfCall, peripheralMove_phase, peripheralMove_result]
  exact ⟨fun transfers => kept.moveRunning u (run transfers),
    fun idle hasResult => kept.moveFinished u (fin idle hasResult)⟩

end

end Sys2Proof.Machine
end

section
/-! The statements about single micro-operations of the Transfer Engine, and about ESC_EN2 (R122 to R127, R156). -/

namespace Sys2Proof.Machine

/-! ### The slave-select line -/

/-- What SELECT and SUCCEEDED do, each with its own level and successor. -/
theorem memWrite_ssport_goto (s : State) (level : Bool) (p : Phase) :
    let t := (memWrite .ssport (zext8 level) s).goto p
    t.loc .ssport = zext8 level ∧ t.ssN = level ∧ KeepsBytesExcept [.ssport] s t ∧ KeepsCall s t ∧
      KeepsCounters s t ∧ KeepsExchange s t :=
  ⟨memWrite_loc_same s .ssport _ (by decide) (by decide) (by decide), memWrite_ssport_ssN s level,
    keepsBytesExcept_setLoc s .ssport _, (keepsCall_memWrite .ssport _ s).goto p,
    (keepsCounters_memWrite .ssport _ s).goto p, (keepsExchange_memWrite _ s (by decide) (by decide)).goto p⟩

/-- Settles O28. -/
theorem selectAndSucceededDriveTheLine : Obligations.SelectAndSucceededDriveTheLine :=
  ⟨fun s => ⟨_, rfl, rfl, memWrite_trace .ssport _ s, memWrite_ssport_goto s false .load⟩,
    fun s => ⟨_, rfl, rfl, memWrite_trace .ssport _ s, memWrite_ssport_goto s true .collect⟩⟩

/-! ### The poll -/

/-- Settles O30: the poll completes, and `poll_of_set` and `poll_of_clear` say what it does with the counters. -/
theorem pollingFollowsItsRule : Obligations.PollingFollowsItsRule := by
  intro s operands
  have ready : answerDone (s.answer .stat) = true ∨ s.callWritten = true := operands.imp_right And.left
  refine ⟨poll s, execPolling_next.mpr ⟨ready, rfl⟩, poll_trace s, keepsBytesExcept_of_mem_eq (poll_mem s) _,
    poll_keepsCall s, keepsExchange_poll s, poll_esc s, fun flag => poll_of_set flag, fun flag => ?_⟩
  have windowPos : 1 ≤ s.window := by
    rcases operands with set | ⟨-, windowPos⟩
    · exact absurd (flag.symm.trans set) Bool.false_ne_true
    · exact windowPos
  obtain ⟨window, phase⟩ := poll_of_clear flag windowPos
  refine ⟨window, fun more => phase.trans (if_pos more), fun last permitted => ?_, fun last spent => ?_⟩
  · rw [phase, if_neg (by omega), if_pos permitted]
  · rw [phase, if_neg (by omega), if_neg (by omega)]

/-! ### The end of a transfer -/

/-- Posting a result and returning to the caller writes `result`, `phase` and the trace only (R108, R177). -/
theorem keeps_returnToCaller_postResult {s u : State} (r : Result) (call : KeepsCall s u)
    (counters : KeepsCounters s u) (exchange : KeepsExchange s u) :
    let t := returnToCaller (postResult r u)
    KeepsCall { s with result := r } t ∧ KeepsCounters s t ∧ KeepsExchange s t :=
  ⟨{ call with result := rfl }, { counters with }, { exchange with }⟩

/-- Settles O33. -/
theorem collectDeliversTheResult : Obligations.CollectDeliversTheResult := by
  intro s written
  have result (v : Variant) (isVariant : s.variant = v) : collected s = v.outcome (s.answer .data) :=
    isVariant ▸ collected_eq s
  exact ⟨_, readingCallRegisters_of_written written _, rfl, by simp, result .receive, result .send,
    done_memRead_data s, keepsBytesExcept_memRead_data s, keeps_returnToCaller_postResult _
      (keepsCall_memRead .data s) (keepsCounters_memRead .data s) (keepsExchange_memRead .data s)⟩

/-- Settles O34. -/
theorem timedoutDeassertsAndReports : Obligations.TimedoutDeassertsAndReports := by
  intro s
  have timeoutWord : Result.timeout.word = 0x300#10 := by decide
  obtain ⟨level, high, bytes, -⟩ := memWrite_ssport_goto s true .idle
  exact ⟨_, rfl, rfl, rfl, timeoutWord, by simp, level, high, bytes, keeps_returnToCaller_postResult _
    (keepsCall_memWrite .ssport _ s) (keepsCounters_memWrite .ssport _ s)
    (keepsExchange_memWrite _ s (by decide) (by decide))⟩

/-! ### The reload of the Retry State -/

/-- Settles O39: the enabling write of CTRL, then the increment and the reload. -/
theorem escEn2ReloadsTheRetryState : Obligations.EscEn2ReloadsTheRetryState := by
  intro s written permitted
  obtain ⟨kept, keptUnlessBare⟩ := keepsBytesExcept_ctrl 0x01#8 s
  have call : KeepsCall s (memWrite .ctrl 0x01#8 s) := keepsCall_memWrite .ctrl _ s
  have exchange : KeepsExchange s (memWrite .ctrl 0x01#8 s) := keepsExchange_enable s
  exact ⟨_, readingCallRegisters_of_written written _, rfl, memWrite_trace .ctrl _ s, effect_escEn2_esc permitted,
    memWrite_params .ctrl 0x01#8 s ▸ rfl, memWrite_loc_same s .ctrl _ (by decide) (by decide) (by decide),
    memWrite_ctrl_en s true, { exchange with }, kept, keptUnlessBare, { call with }⟩

end Sys2Proof.Machine
end

section
/-! Every step keeps what the trace of a call shows (R123, R130, R133, R135, R136, R158). -/

namespace Sys2Proof.Machine

theorem runningCallOk_acceptTransfer (c : BitVec 10) (v : Variant) (b : Byte) (s : State) :
    RunningCallOk (acceptTransfer c v b s) := by
  simp [RunningCallOk, accessIndex, Phase.escalating]

section
variable {s : State}

/-- LOAD makes the one DATA write, which is neither a poll nor a SET_SS (R88, R123). -/
theorem runningCallOk_load (load : s.phase = .load) (ok : RunningCallOk s) : RunningCallOk (effect .load s) := by
  have notAssert : writeWord .data s.tx ≠ 0xC00#12 := writeWord_data_ne s.tx (by decide)
  have notDeassert : writeWord .data s.tx ≠ 0xC01#12 := writeWord_data_ne s.tx (by decide)
  have notPoll : writeWord .data s.tx ≠ 0x100#12 := writeWord_data_ne s.tx (by decide)
  simpa +arith [RunningCallOk, load, effect, accessIndex, Phase.escalating, writeWord_data_high, notAssert, notDeassert,
    notPoll] using ok

/-- A poll is one access more: the window pays for it, or the success that ends the polling does. -/
theorem runningCallOk_poll (inv : s.Inv) (polling : s.phase = .polling) (ok : RunningCallOk s) :
    RunningCallOk (poll s) := by
  rcases poll_next inv polling with
    ⟨phase, window⟩ | ⟨phase, window⟩ | ⟨phase, used, last, -⟩ | ⟨phase, used, last⟩
  · simpa +arith [RunningCallOk, poll_trace, polling, phase, window, accessIndex, Phase.escalating] using ok
  · simpa +arith [RunningCallOk, poll_trace, polling, phase, window, accessIndex, Phase.escalating] using ok
  · simpa +arith [RunningCallOk, poll_trace, polling, phase, used, last, accessIndex, Phase.escalating] using ok
  · simpa +arith [RunningCallOk, poll_trace, polling, phase, used, last, accessIndex, Phase.escalating] using ok

/-- ESC_EN2 opens a new window and ends the run of the Reset Escalator that the marker counted (R156). -/
theorem runningCallOk_escEn2 (inv : s.Inv) (escEn2 : s.phase = .escEn2) (ok : RunningCallOk s) :
    RunningCallOk (effect .escEn2 s) := by
  obtain ⟨window, permitted⟩ := counters_of_escalating inv (by rw [escEn2]; rfl)
  have windows : (s.esc + 1 + 1) * s.params.windowMax = (s.esc + 1) * s.params.windowMax + s.params.windowMax :=
    Nat.succ_mul _ _
  have incremented := effect_escEn2_esc permitted
  simp only [RunningCallOk, incremented]
  simpa +arith [RunningCallOk, escEn2, effect, window, windows, accessIndex, Phase.escalating] using ok

end

/-- The counts of the call's trace after a micro-operation, with the phase and the counters it leaves. Here and below
`List.append_assoc` is kept from simp, so that the lemmas on the call's trace take the events one by one. -/
theorem runningCallOk_effect (s : State) (inv : s.Inv) (transfers : s.phase.transferring = true) (ok : RunningCallOk s)
    (busy : (effect (microOp s.phase) s).phase ≠ .idle) : RunningCallOk (effect (microOp s.phase) s) := by
  cases hp : s.phase with
  | idle | initCfg | initSs | initEn => rw [hp] at transfers; cases transfers
  | collect | timedout => rw [hp] at busy; exact absurd rfl busy
  | load => exact runningCallOk_load hp ok
  | polling => exact runningCallOk_poll inv hp ok
  | escEn2 => exact runningCallOk_escEn2 inv hp ok
  | drain | select | escDis1 | escEn1 | escDrain | escClr | escDis2 | succeeded =>
    simpa +arith [-List.append_assoc, RunningCallOk, hp, microOp, effect, accessIndex, Phase.escalating] using ok

/-- COLLECT ends the call with the polls its windows allow, the last of them successful (R126, R133). -/
theorem finishedCallOk_collect (s : State) (inv : s.Inv) (collect : s.phase = .collect) (ok : RunningCallOk s) :
    FinishedCallOk (effect .collect s) := by
  obtain ⟨windowPos, -, escLe⟩ := counters_of_polling inv (.inr collect)
  simp only [RunningCallOk, collect, accessIndex, Phase.escalating] at ok
  obtain ⟨falls, rises, loads, results, resets, polls, accesses⟩ := ok
  have pollsLe : pollCount (callTrace s.trace) ≤ (s.params.escalationMax + 1) * s.params.windowMax :=
    calc
      pollCount (callTrace s.trace) ≤ (s.esc + 1) * s.params.windowMax := by
        simp only [reduceCtorEq, or_true, if_true] at polls
        omega
      _ ≤ (s.params.escalationMax + 1) * s.params.windowMax := Nat.mul_le_mul_right _ (Nat.succ_le_succ escLe)
  simp +arith [-List.append_assoc, FinishedCallOk, effect, collected_ne_timeout, falls, rises, loads, results, resets,
    accesses, pollsLe, escLe]

/-- TIMEDOUT ends the call with every window and every reset used up (R127, R158). -/
theorem finishedCallOk_timedout (s : State) (inv : s.Inv) (timedout : s.phase = .timedout) (ok : RunningCallOk s) :
    FinishedCallOk (effect .timedout s) := by
  have counters := inv.counters
  simp only [CountersOk, timedout] at counters
  obtain ⟨window, esc⟩ := counters
  simp only [RunningCallOk, timedout, accessIndex, Phase.escalating, window, esc] at ok
  obtain ⟨falls, rises, loads, results, resets, polls, accesses⟩ := ok
  have pollsAll : pollCount (callTrace s.trace) = (s.params.escalationMax + 1) * s.params.windowMax := polls
  simp +arith [-List.append_assoc, FinishedCallOk, effect, falls, rises, loads, results, resets, accesses, pollsAll]

/-- The two claims of `CallOk`: each micro-operation adds to the counts what its successor and the counters say. -/
theorem keptByACall_callOk : KeptByACall RunningCallOk FinishedCallOk where
  accept := runningCallOk_acceptTransfer
  operation := runningCallOk_effect
  collect := finishedCallOk_collect
  timedout := finishedCallOk_timedout
  moveRunning := fun s ok => by simpa [RunningCallOk] using ok
  moveFinished := fun s ok => by simpa [FinishedCallOk] using ok

theorem callOk_iff (s : State) : CallOk s ↔ ClaimsOfCall RunningCallOk FinishedCallOk s := Iff.rfl

/-- Settles O51: `CallOk` is two claims about a call that every step keeps (`keptByACall_callOk`). -/
theorem stepKeepsTheCallTrace : Obligations.StepKeepsTheCallTrace :=
  fun s t inv ok h => (callOk_iff t).mpr (claimsOfCall_step keptByACall_callOk inv ((callOk_iff s).mp ok) h)

end Sys2Proof.Machine
end

section
/-! Every step keeps the exact sequence of accesses of a transfer (R130, R135, R150, R161). -/

namespace Sys2Proof.Machine

theorem requestsOf_append (es fs : List Event) : requestsOf (es ++ fs) = requestsOf es ++ requestsOf fs :=
  List.filterMap_append

/-- A micro-operation makes the access of its phase and no other (R74). -/
theorem requestsOf_events (p : Phase) (s : State) : requestsOf (p.events s) = (requestOfPhase s p).toList := by
  cases p <;> rfl

theorem requestsOf_effect (p : Phase) (s : State) :
    requestsOf (callTrace (effect (microOp p) s).trace) =
      requestsOf (callTrace s.trace) ++ (requestOfPhase s p).toList := by
  rw [effect_microOp_trace, callTrace_append_noAccept (events_noAccept p s), requestsOf_append, requestsOf_events]

section
variable {s t : State}

theorem pollsSoFar_congr (tx : t.tx = s.tx) (esc : t.esc = s.esc) (params : t.params = s.params) (n : Nat) :
    pollsSoFar t n = pollsSoFar s n := by
  rw [pollsSoFar, pollsSoFar, tx, esc, params]

theorem pollsSoFar_succ (s : State) (n : Nat) : pollsSoFar s (n + 1) = pollsSoFar s n ++ [0x100#12] := by
  rw [pollsSoFar, List.replicate_succ', ← List.append_assoc, ← pollsSoFar]

/-- A whole window and the six accesses of a reset make one failed window more (R130, R150). -/
theorem pollsSoFar_reset (tx : t.tx = s.tx) (esc : t.esc = s.esc + 1) (params : t.params = s.params) :
    pollsSoFar t 0 = pollsSoFar s s.params.windowMax ++ resetRequests := by
  simp [pollsSoFar, tx, esc, params, List.replicate_succ', failedWindow]

/-- A poll lengthens the current window's polls by one. -/
theorem requestsSoFar_poll (inv : s.Inv) (polling : s.phase = .polling) :
    requestsSoFar (poll s) = requestsSoFar s ++ [0x100#12] := by
  obtain ⟨windowPos, windowLe, -⟩ := counters_of_polling inv (.inl polling)
  have polls (n : Nat) : pollsSoFar (poll s) n = pollsSoFar s n :=
    pollsSoFar_congr (poll_tx s) (poll_esc s) (poll_params s) n
  have made : requestsSoFar s ++ [0x100#12] = pollsSoFar s (s.params.windowMax - s.window + 1) := by
    simp only [requestsSoFar, polling, pollsSoFar_succ]
  rw [made]
  rcases poll_next inv polling with
    ⟨phase, window⟩ | ⟨phase, window⟩ | ⟨phase, -, last, -⟩ | ⟨phase, -, last⟩
  · simp only [requestsSoFar, phase, polls, window, poll_params]
  all_goals
    simp only [requestsSoFar, phase, polls, poll_params]
    congr 1
    omega

/-- The accesses of a running transfer grow by that of its phase (R74, R130). -/
theorem requestsSoFar_effect (inv : s.Inv) (transfers : s.phase.transferring = true)
    (busy : (effect (microOp s.phase) s).phase ≠ .idle) :
    requestsSoFar (effect (microOp s.phase) s) = requestsSoFar s ++ (requestOfPhase s s.phase).toList := by
  cases hp : s.phase with
  | idle | initCfg | initSs | initEn => rw [hp] at transfers; cases transfers
  | collect | timedout => rw [hp] at busy; exact absurd rfl busy
  | polling => exact requestsSoFar_poll inv hp
  | load =>
    have counters := inv.counters
    simp only [hp, CountersOk] at counters
    simp [requestsSoFar, pollsSoFar, requestOfPhase, hp, microOp, effect, counters]
  | escEn2 =>
    obtain ⟨-, permitted⟩ := counters_of_escalating inv (by rw [hp]; rfl)
    have opened : pollsSoFar (effect .escEn2 s) 0 = pollsSoFar s s.params.windowMax ++ resetRequests :=
      pollsSoFar_reset (effect_microOp_tx .escEn2 s) (effect_escEn2_esc permitted) (effect_microOp_params .escEn2 s)
    have reloaded : requestsSoFar (effect .escEn2 s) = pollsSoFar (effect .escEn2 s) 0 := by
      simp [requestsSoFar, effect]
    rw [microOp, reloaded, opened]
    simp [requestsSoFar, requestOfPhase, hp, resetRequests]
  | _ => simp [requestsSoFar, pollsSoFar, requestOfPhase, hp, microOp, effect, resetRequests]

theorem requestsOfCall_collect (collect : s.phase = .collect) :
    requestsOfCall (effect .collect s) = requestsSoFar s ++ [0x000#12] := by
  simp [requestsOfCall, requestsSoFar, pollsSoFar, collect, effect, collected_ne_timeout]

theorem requestsOfCall_timedout (timedout : s.phase = .timedout) :
    requestsOfCall (effect .timedout s) = requestsSoFar s ++ [0xC01#12] := by
  simp [requestsOfCall, requestsSoFar, pollsSoFar, timedout, effect]

end

/-- The two claims of `ShapeOk`: each micro-operation adds the access of its phase. -/
theorem keptByACall_shapeOk :
    KeptByACall (fun s => requestsOf (callTrace s.trace) = requestsSoFar s)
      (fun s => requestsOf (callTrace s.trace) = requestsOfCall s) where
  accept := fun c v b s => by simp [requestsSoFar, requestsOf]
  operation := fun s inv transfers made busy => by
    rw [requestsOf_effect, requestsSoFar_effect inv transfers busy, made]
  collect := fun s _ collect made => by
    rw [requestsOfCall_collect collect, ← made]
    exact requestsOf_effect .collect s
  timedout := fun s _ timedout made => by
    rw [requestsOfCall_timedout timedout, ← made]
    exact requestsOf_effect .timedout s
  moveRunning := fun s made => by simpa [requestsSoFar, pollsSoFar] using made
  moveFinished := fun s made => by simpa [requestsOfCall, pollsSoFar] using made

theorem shapeOk_iff (s : State) :
    ShapeOk s ↔ ClaimsOfCall (fun s => requestsOf (callTrace s.trace) = requestsSoFar s)
      (fun s => requestsOf (callTrace s.trace) = requestsOfCall s) s :=
  Iff.rfl

/-- Settles O52: `ShapeOk` is two claims about a call that every step keeps (`keptByACall_shapeOk`). -/
theorem stepKeepsTheShapeOfATransfer : Obligations.StepKeepsTheShapeOfATransfer :=
  fun s t inv ok h => (shapeOk_iff t).mpr (claimsOfCall_step keptByACall_shapeOk inv ((shapeOk_iff s).mp ok) h)

end Sys2Proof.Machine
end

section
/-! A running command is back in IDLE within the bound of R133, whatever the environment answers (R134). -/

namespace Sys2Proof.Machine

/-- The steps of the windows still to be opened after `esc` resets, each with the reset before it (R133, R150). -/
def retrySteps (p : Config.Params) (esc : Nat) : Nat := (p.escalationMax - esc) * (p.windowMax + 6)

/-- The most steps a command in `phase` can still take: every poll of every window left, six steps for every reset
left, and the steps before and after the polling (R134, R218). -/
def stepsLeft (s : State) : Nat :=
  match s.phase with
  | .idle => 0
  | .initEn | .collect | .timedout => 1
  | .initSs | .succeeded => 2
  | .initCfg => 3
  | .polling => s.window + retrySteps s.params s.esc + 2
  | .load => s.window + retrySteps s.params s.esc + 3
  | .select => s.window + retrySteps s.params s.esc + 4
  | .drain => s.window + retrySteps s.params s.esc + 5
  | .escEn2 => s.params.windowMax + retrySteps s.params (s.esc + 1) + 3
  | .escDis2 => s.params.windowMax + retrySteps s.params (s.esc + 1) + 4
  | .escClr => s.params.windowMax + retrySteps s.params (s.esc + 1) + 5
  | .escDrain => s.params.windowMax + retrySteps s.params (s.esc + 1) + 6
  | .escEn1 => s.params.windowMax + retrySteps s.params (s.esc + 1) + 7
  | .escDis1 => s.params.windowMax + retrySteps s.params (s.esc + 1) + 8

/-- One more reset is one more window and six more steps. -/
theorem retrySteps_of_lt {p : Config.Params} {esc : Nat} (permitted : esc < p.escalationMax) :
    retrySteps p esc = retrySteps p (esc + 1) + (p.windowMax + 6) := by
  have left : p.escalationMax - esc = p.escalationMax - (esc + 1) + 1 := by omega
  rw [retrySteps, left, Nat.succ_mul, retrySteps]

theorem retrySteps_le (p : Config.Params) (esc : Nat) : retrySteps p esc ≤ p.escalationMax * (p.windowMax + 6) :=
  Nat.mul_le_mul_right _ (Nat.sub_le _ _)

section
variable {s : State}

theorem stepsLeft_poll (inv : s.Inv) (polling : s.phase = .polling) : stepsLeft (poll s) < stepsLeft s := by
  obtain ⟨windowPos, -, -⟩ := counters_of_polling inv (.inl polling)
  rcases poll_next inv polling with
    ⟨phase, -⟩ | ⟨phase, window⟩ | ⟨phase, -, last, permitted⟩ | ⟨phase, -, -⟩
  · simp only [stepsLeft, phase, polling]
    omega
  · simp only [stepsLeft, phase, polling, poll_esc, poll_params]
    omega
  · have retries := retrySteps_of_lt permitted
    simp only [stepsLeft, phase, polling, poll_esc, poll_params]
    omega
  · simp only [stepsLeft, phase, polling]
    omega

/-- Every step of a running command uses one up. -/
theorem stepsLeft_effect (inv : s.Inv) (busy : s.phase ≠ .idle) :
    stepsLeft (effect (microOp s.phase) s) < stepsLeft s := by
  cases hp : s.phase with
  | idle => exact absurd hp busy
  | polling => exact stepsLeft_poll inv hp
  | escEn2 =>
    obtain ⟨-, permitted⟩ := counters_of_escalating inv (by rw [hp]; rfl)
    simp [stepsLeft, hp, microOp, effect, incrementedEsc, permitted]
  | _ => simp [stepsLeft, hp, microOp, effect]

theorem stepsLeft_le (inv : s.Inv) :
    stepsLeft s ≤ 5 + (s.params.escalationMax + 1) * s.params.windowMax + 6 * s.params.escalationMax := by
  obtain ⟨windowLe, -⟩ := inv.range
  have retries := retrySteps_le s.params s.esc
  have total : (s.params.escalationMax + 1) * s.params.windowMax + 6 * s.params.escalationMax =
      s.params.windowMax + s.params.escalationMax * (s.params.windowMax + 6) := by ring
  cases hp : s.phase with
  | escDis1 | escEn1 | escDrain | escClr | escDis2 | escEn2 =>
    obtain ⟨-, permitted⟩ := counters_of_escalating inv (by rw [hp]; rfl)
    rw [retrySteps_of_lt permitted] at retries
    simp only [stepsLeft, hp]
    omega
  | _ =>
    simp only [stepsLeft, hp]
    omega

theorem exists_run_idle (n : Nat) (inv : s.Inv) (noPort : s.port = none) (noEvent : s.powerOn = false)
    (left : stepsLeft s ≤ n) : ∃ k t, k ≤ n ∧ core.run k s = .next t ∧ t.phase = .idle := by
  induction n generalizing s with
  | zero =>
    have idle : s.phase = .idle := by
      by_contra busy
      have := stepsLeft_effect inv busy
      omega
    exact ⟨0, s, Nat.le_refl 0, rfl, idle⟩
  | succ n ih =>
    by_cases idle : s.phase = .idle
    · exact ⟨0, s, Nat.zero_le _, rfl, idle⟩
    have stepped := step_eq_advance noEvent noPort idle fun transfers => (inv.initialised transfers).2
    have moved : stepsLeft (advance s) = stepsLeft (effect (microOp s.phase) s) := by simp [advance, stepsLeft]
    have less := stepsLeft_effect inv idle
    obtain ⟨k, t, within, ran, idleAgain⟩ :=
      ih (s := advance s) (inv_peripheralMove (inv_effect inv)) (by simpa) (by simpa) (by omega)
    exact ⟨k + 1, t, by omega, (run_succ stepped k).trans ran, idleAgain⟩

end

/-- Settles O55: `stepsLeft` falls with every step (`stepsLeft_effect`) and starts within the bound (`stepsLeft_le`). -/
theorem runningCallReturnsToIdle : Obligations.RunningCallReturnsToIdle :=
  fun _ inv noPort noEvent _ => exists_run_idle _ inv noPort noEvent (stepsLeft_le inv)

end Sys2Proof.Machine
end

section
/-! One run of the Reset Escalator from any state of the invariant, whatever the environment does between its steps
(R150 to R156, R159 to R161). -/

namespace Sys2Proof.Machine

/-! ### The exchange in flight -/

section
variable {s : State}

/-- LOAD starts an exchange and a disable abandons it; nothing else SPIM does touches it (R57, R60). -/
theorem effect_microOp_inflight (p : Phase) (s : State) :
    (effect (microOp p) s).inflight = (decide (p = .load) || s.inflight && p.enableWrite.getD true) := by
  cases p <;> simp [microOp, effect, Phase.enableWrite]

/-- The peripheral ends exchanges and starts none (R57, R63). -/
theorem peripheralMove_inflight_of_not (notFlying : s.inflight = false) : (peripheralMove s).inflight = false := by
  cases env : s.env with
  | contract plan =>
    rcases peripheralMove_cases_of_contract s (by rw [env]; rfl) with ⟨same, -⟩ | ⟨flying, -, -⟩
    · exact same.trans notFlying
    · exact absurd (notFlying.symm.trans flying) Bool.false_ne_true
  | _ => simp [peripheralMove, environmentMove, bareMove, env, notFlying]

/-- After a disable nothing is in flight (R155). -/
theorem advance_inflight_of_disable (disables : s.phase.enableWrite = some false) : (advance s).inflight = false := by
  have notLoad : s.phase ≠ .load := fun load => by simp [load, Phase.enableWrite] at disables
  refine peripheralMove_inflight_of_not ?_
  simp [effect_microOp_inflight, notLoad, disables]

/-- Outside LOAD a step leaves nothing in flight where nothing was (R57, R161). -/
theorem advance_inflight_of_not (notLoad : s.phase ≠ .load) (notFlying : s.inflight = false) :
    (advance s).inflight = false := by
  refine peripheralMove_inflight_of_not ?_
  simp [effect_microOp_inflight, notLoad, notFlying]

end

/-! ### The steps of the run -/

/-- `k` steps of a run of the Reset Escalator begun in `s` lead to `t` in phase `p`, and put the events `es` on the
trace. -/
structure Escalates (k : Nat) (es : List Event) (s t : State) (p : Phase) : Prop where
  run : core.run k s = .next t
  inv : t.Inv
  phase : t.phase = p
  noPort : t.port = none
  noEvent : t.powerOn = false
  esc : t.esc = s.esc
  params : t.params = s.params
  trace : t.trace = s.trace ++ es

section
variable {k : Nat} {es : List Event} {s t : State} {p q : Phase}

theorem Escalates.begin (inv : s.Inv) (escDis1 : s.phase = .escDis1) (noPort : s.port = none)
    (noEvent : s.powerOn = false) : Escalates 0 [] s s .escDis1 :=
  ⟨rfl, inv, escDis1, noPort, noEvent, rfl, rfl, (List.append_nil _).symm⟩

theorem Phase.transferring_of_escalating (escalates : p.escalating = true) : p.transferring = true := by
  revert escalates
  cases p <;> decide

theorem Phase.ne_idle_of_transferring (transfers : p.transferring = true) : p ≠ .idle := by
  rintro rfl
  cases transfers

/-- The step of a phase of the Reset Escalator completes (R37, R66). -/
theorem Escalates.step (h : Escalates k es s t p) (escalates : p.escalating = true) :
    core.run (k + 1) s = .next (advance t) ∧ (advance t).Inv ∧ (advance t).phase ∈ successors p := by
  obtain rfl := h.phase
  have transfers := Phase.transferring_of_escalating escalates
  have busy := Phase.ne_idle_of_transferring transfers
  have stepped := step_eq_advance h.noEvent h.noPort busy fun _ => (h.inv.initialised transfers).2
  refine ⟨(run_add h.run 1).trans (run_succ stepped 0), inv_peripheralMove (inv_effect h.inv), ?_⟩
  rw [advance, peripheralMove_phase]
  exact effect_microOp_phase t.phase t busy

/-- A step before ESC_EN2 goes on to the one successor of its phase (R120, R150). -/
theorem Escalates.next (h : Escalates k es s t p) (escalates : p.escalating = true) (next : successors p = [q])
    (notEscEn2 : p ≠ .escEn2) : Escalates (k + 1) (es ++ p.events t) s (advance t) q := by
  obtain ⟨run, inv, phase⟩ := h.step escalates
  rw [next, List.mem_singleton] at phase
  have esc : (advance t).esc = t.esc := by
    rw [advance, peripheralMove_esc, effect_microOp_esc _ _ (h.phase.symm ▸ notEscEn2)]
  exact
    { run, inv, phase
      noPort := (advance_port t).trans h.noPort
      noEvent := (advance_powerOn t).trans h.noEvent
      esc := esc.trans h.esc
      params := (advance_params t).trans h.params
      trace := by rw [advance_trace, h.trace, h.phase, List.append_assoc] }

/-- From ESC_DIS1 to ESC_EN2, which finds nothing in flight (R151 to R155). -/
theorem exists_escalates_escEn2 (inv : s.Inv) (escDis1 : s.phase = .escDis1) (noPort : s.port = none)
    (noEvent : s.powerOn = false) :
    ∃ (u : State) (v : Byte), u.inflight = false ∧
      Escalates 5 [.resetBegin (s.esc + 1), .access 0xA00#12 none, .access 0xA01#12 none,
        .access 0x000#12 (some v), .access 0x900#12 none, .access 0xA00#12 none] s u .escEn2 := by
  have toEscEn1 := (Escalates.begin inv escDis1 noPort noEvent).next rfl rfl (by decide)
  have toEscDrain := toEscEn1.next rfl rfl (by decide)
  have toEscClr := toEscDrain.next rfl rfl (by decide)
  have toEscDis2 := toEscClr.next rfl rfl (by decide)
  exact ⟨_, _, advance_inflight_of_disable (by rw [toEscDis2.phase]; rfl), toEscDis2.next rfl rfl (by decide)⟩

/-- ESC_EN2 ends the run: the one step that advances the counters (R132, R156). -/
theorem Escalates.reload (h : Escalates k es s t .escEn2) :
    (advance t).phase = .polling ∧ (advance t).esc = s.esc + 1 ∧ (advance t).window = s.params.windowMax := by
  obtain ⟨-, permitted⟩ := counters_of_escalating h.inv (by rw [h.phase]; rfl)
  have reloads : advance t = peripheralMove (effect .escEn2 t) := by rw [advance, h.phase, microOp]
  rw [reloads, peripheralMove_esc, effect_escEn2_esc permitted, h.esc, ← h.params]
  simp [effect]

end

/-- In POLLING the line is low and the peripheral enabled (R35, R186). -/
theorem line_enable_of_polling {s : State} (inv : s.Inv) (polling : s.phase = .polling) :
    s.ssN = false ∧ s.en = true := by
  obtain ⟨done, -⟩ := inv.initialised (by rw [polling]; rfl)
  exact ⟨inv.line.1 (by rw [polling]; rfl), inv.enable (by simp [enabled, polling, done, Phase.initialising])⟩

/-- Settles O40: five steps to ESC_EN2 and its reload; the line and the enable bit are those the invariant gives
POLLING, and what was in flight has ended with the second disable. -/
theorem resetEscalatorRunsItsFixedSequence : Obligations.ResetEscalatorRunsItsFixedSequence := by
  intro s inv escDis1 noPort noEvent
  obtain ⟨u, v, notFlying, toEscEn2⟩ := exists_escalates_escEn2 inv escDis1 noPort noEvent
  obtain ⟨run, invEnd, -⟩ := toEscEn2.step rfl
  obtain ⟨polling, esc, window⟩ := toEscEn2.reload
  obtain ⟨low, enable⟩ := line_enable_of_polling invEnd polling
  have inflight := advance_inflight_of_not (by rw [toEscEn2.phase]; decide) notFlying
  refine ⟨advance u, v, run, polling, esc, window, low, enable, inflight, ?_⟩
  rw [advance_trace, toEscEn2.trace, toEscEn2.phase, List.append_assoc]
  rfl

end Sys2Proof.Machine
end

section
/-! The exception family: when Timeout is raised and by what (R171, R173, R176), and which words reach the caller level
(R181, R187). -/

namespace Sys2Proof.Machine

/-! ### Timeout -/

section
variable {s : State}

/-- A poll raises Timeout where its flag is clear, its window is at the last poll and no reset is left (R171). -/
theorem poll_timedout_iff (windowPos : 1 ≤ s.window) (escInRange : s.esc ≤ s.params.escalationMax) :
    (poll s).phase = .timedout ↔
      answerDone (s.answer .stat) = false ∧ s.window = 1 ∧ s.esc = s.params.escalationMax := by
  cases flag : answerDone (s.answer .stat)
  case true => simp [(poll_of_set flag).1]
  case false =>
    rw [(poll_of_clear flag windowPos).2]
    by_cases more : 2 ≤ s.window
    · have notLast : s.window ≠ 1 := by omega
      simp [more, notLast]
    · have last : s.window = 1 := by omega
      simp [last, le_antisymm_iff, escInRange]

/-- Only POLLING leads to TIMEDOUT: the acceptances and the other micro-operations name another successor, and the
accesses, the result words and IDLE keep `phase` (R120, R173). -/
theorem eq_polling_of_effect_timedout {i : Instr} (timedout : (effect i s).phase = .timedout)
    (before : s.phase ≠ .timedout) : i = .polling := by
  cases i
  case polling => rfl
  case rdData | rdStat | wrData | clrStat | wrEn | wrCfg | setSs | resNone | resAck | resByte | resTimeout | idle =>
    exact absurd (by simpa [effect] using timedout) before
  all_goals cases timedout

end

/-- Settles O32: `poll_timedout_iff` for POLLING, `eq_polling_of_effect_timedout` for the others. -/
theorem timeoutIsRaisedExactlyWhenTheBudgetIsSpent : Obligations.TimeoutIsRaisedExactlyWhenTheBudgetIsSpent := by
  refine ⟨fun s written windowPos escInRange => ⟨?_, fun spent => ?_⟩, fun i s t ran timedout => ?_⟩
  · rintro ⟨t, ran, timedout⟩
    obtain rfl := exec_next ran
    exact (poll_timedout_iff windowPos escInRange).mp timedout
  · exact ⟨poll s, execPolling_next.mpr ⟨.inr written, rfl⟩, (poll_timedout_iff windowPos escInRange).mpr spent⟩
  · obtain rfl := exec_next ran
    exact eq_polling_of_effect_timedout timedout

/-! ### The caller level -/

/-- The caller level is the instructions that Format H has a word for (R181). -/
theorem callerLevel_iff_exists_command (i : Instr) : i.callerLevel = true ↔ ∃ w, encode i = .command w := by
  cases i
  case init | send | receive => exact iff_of_true rfl ⟨_, rfl⟩
  all_goals exact iff_of_false nofun nofun

/-- Settles O5: a command word that decodes is the word of its instruction (`encode_of_decode`). -/
theorem commandWordsReachOnlyTheCallerLevel : Obligations.CommandWordsReachOnlyTheCallerLevel :=
  ⟨fun w i decoded => (callerLevel_iff_exists_command i).mpr ⟨w, encode_of_decode decoded⟩,
    callerLevel_iff_exists_command⟩

end Sys2Proof.Machine
end

section
/-! The reset family: what the power-on event does in each state it can be presented in (R200; log 16). -/

namespace Sys2Proof.Machine

section
variable {s : State}

/-- The state the power-on event leaves (R200): SPIM as at reset, its four call registers unwritten again (R37), and
the peripheral as it was. -/
def State.afterPowerOn (s : State) : State :=
  { s with phase := .idle, result := .none, initDone := false, trace := [], callWritten := false, powerOn := false }

theorem powerOnReset_of_busy (busy : s.phase ≠ .idle) : powerOnReset s = .refused .resetWhileBusy := by
  simp [powerOnReset, State.busy, busy]

theorem powerOnReset_of_accepted (idle : s.phase = .idle) (accepted : s.trace.any Event.isAccept = true) :
    powerOnReset s = .refused .resetAfterCommand := by
  simp [powerOnReset, State.busy, idle, accepted]

theorem powerOnReset_of_noCommand (idle : s.phase = .idle) (noCommand : s.trace.any Event.isAccept = false) :
    powerOnReset s = .next s.afterPowerOn := by
  simp [powerOnReset, State.busy, idle, noCommand, State.afterPowerOn]

/-- While the event is presented, no word is fetched. -/
theorem step_of_powerOn (event : s.powerOn = true) : step s = settle (powerOnReset s) := if_pos event

end

/-- Settles O11: the step is the event's own outcome, one clause for each of its three cases. -/
theorem powerOnResetsOnlyBeforeTheFirstCommand : Obligations.PowerOnResetsOnlyBeforeTheFirstCommand := by
  refine ⟨fun s event idle noCommand => ?_, fun s event busy => ?_, fun s event idle accepted => ?_⟩
  · have reset := powerOnReset_of_noCommand idle noCommand
    refine ⟨s.afterPowerOn, reset, ?_, rfl, rfl, rfl, rfl, rfl, rfl, fun _ => rfl⟩
    rw [step_of_powerOn event, reset, settle]
  · rw [step_of_powerOn event, powerOnReset_of_busy busy, settle]
  · rw [step_of_powerOn event, powerOnReset_of_accepted idle accepted, settle]

end Sys2Proof.Machine
end

section
/-! The counters where the spec gives them no value (log 10): POLLING and ESC_EN2 run there too, and the counter they
write stays in its range. -/

namespace Sys2Proof.Machine

section
variable {s : State}

/-- After an unsuccessful poll `phase` follows the new `window`, whatever `window` was (R124; log 10). -/
theorem poll_phase_of_clear (flag : answerDone (s.answer .stat) = false) :
    (1 ≤ (poll s).window → (poll s).phase = .polling) ∧
      ((poll s).window = 0 →
        (poll s).phase = if s.esc < s.params.escalationMax then .escDis1 else .timedout) := by
  have counted : poll s = countPoll (memRead .stat s) := if_neg (by simp [flag])
  obtain ⟨w, p, d, frame, -, waits, exhausted⟩ := countPoll_frame (memRead .stat s)
  rw [memRead_esc, memRead_params] at exhausted
  rw [counted, frame]
  exact ⟨waits, exhausted⟩

/-- ESC_EN2 leaves `esc` in `0..ESCALATION_MAX`, whatever `esc` was (R132; log 10). -/
theorem effect_escEn2_esc_le (s : State) : (effect .escEn2 s).esc ≤ s.params.escalationMax := by
  simpa [effect] using incrementedEsc_le (memWrite .ctrl 0x01#8 s)

end

/-- Settles O31: the poll follows its new window (`poll_phase_of_clear`); ESC_EN2 is the enabling write of CTRL, then
a reload whose `esc` is bounded by `effect_escEn2_esc_le`, for every `esc` before it. -/
theorem countersStayInRangeWhereTheSpecIsSilent : Obligations.CountersStayInRangeWhereTheSpecIsSilent := by
  refine ⟨fun s written zero => ?polling, fun s written _ => ?escEn2⟩
  case polling =>
    have inRange : s.window ≤ s.params.windowMax := zero.trans_le (Nat.zero_le _)
    refine ⟨poll s, execPolling_of_written written, poll_window_le s inRange, poll_esc s, poll_keepsCall s,
      keepsExchange_poll s, keepsBytesExcept_of_mem_eq (poll_mem s) _, poll_trace s, fun flag => ?_,
      fun flag => (poll_phase_of_clear flag).1, fun flag => (poll_phase_of_clear flag).2⟩
    obtain ⟨phase, window⟩ := poll_of_set flag
    exact ⟨phase, window.trans zero⟩
  case escEn2 =>
    obtain ⟨kept, keptUnlessBare⟩ := keepsBytesExcept_ctrl 0x01#8 s
    have call : KeepsCall s (memWrite .ctrl 0x01#8 s) := keepsCall_memWrite .ctrl _ s
    have exchange : KeepsExchange s (memWrite .ctrl 0x01#8 s) := keepsExchange_enable s
    exact ⟨effect .escEn2 s, readingCallRegisters_of_written written _, rfl, effect_escEn2_esc_le s,
      memWrite_params .ctrl 0x01#8 s ▸ rfl, memWrite_loc_same s .ctrl _ (by decide) (by decide) (by decide),
      memWrite_ctrl_en s true, { exchange with }, kept, keptUnlessBare, { call with }, memWrite_trace .ctrl _ s⟩

end Sys2Proof.Machine
end
